-- ==== Sys2Proof/Word.lean ====
section
/-! DEFINITION. The data shapes of the AES round core (spec 00_scope.md R6, R7, R9). -/

namespace Sys2Proof

/-- A Byte: 8 bits, unsigned (R6, R9). -/
abbrev Byte := BitVec 8

/-- A Block: 128 bits, the serialized form of a State or a round key (R6, R9). -/
abbrev Block := BitVec 128

/-- A Word: four Bytes, `b0` the leftmost one (R9, R30). -/
@[ext] structure Word where
  b0 : Byte
  b1 : Byte
  b2 : Byte
  b3 : Byte
deriving DecidableEq, Repr, Inhabited

/-- The source's State: a 4x4 matrix of Bytes held by columns, since column `i` is bytes 4i to 4i+3 of the
Block (R11, and 90_conflicts.md C1). Within a column the bytes go down the rows. -/
@[ext] structure AesState where
  col0 : Word
  col1 : Word
  col2 : Word
  col3 : Word
deriving DecidableEq, Repr, Inhabited

/-- A round key: four Words, `w0` holding bytes 0 to 3 of the key Block (R12). -/
@[ext] structure RoundKey where
  w0 : Word
  w1 : Word
  w2 : Word
  w3 : Word
deriving DecidableEq, Repr, Inhabited

end Sys2Proof
end

