-- ==== Sys2Proof/Syntax.lean ====
section
/-! DEFINITION. Commands, decoded instructions, responses, host events and assembler lines
(spec 30_encoding.md, 60_exceptions.md R112). -/

namespace Sys2Proof

/-- The multiplier of GFMUL: the closed set 1, 2, 3 (R45, R80). -/
inductive Multiplier where
  | one
  | two
  | three
deriving DecidableEq, Repr

/-- The fifteen legal command words by name, one for each row of R46. -/
inductive Opcode where
  | lds | ldk | rds | rdk | rdst | sbox | gfmul1 | gfmul2 | gfmul3 | ark | sub | shr | mix | round | kexp
deriving DecidableEq, Repr

/-- A decoded command, one constructor for each row of spec/opcode_table.json. It carries the bits of `din` that the
command uses (R42) and no others, so that every term is one the hardware can be given. -/
inductive Instr where
  /-- LDS, load state (R60). -/
  | lds (din : Block)
  /-- LDK, load round key (R61). -/
  | ldk (din : Block)
  /-- RDS, read state (R62). -/
  | rds
  /-- RDK, read round key (R63). -/
  | rdk
  /-- RDST, read status (R66). -/
  | rdst
  /-- SBOX, substitute one Byte (R74). -/
  | sbox (x : Byte)
  /-- GFMUL 1 (R81). -/
  | gfmul1 (a : Byte)
  /-- GFMUL 2 (R81). -/
  | gfmul2 (a : Byte)
  /-- GFMUL 3 (R81). -/
  | gfmul3 (a : Byte)
  /-- ARK, AddRoundKey (R93). -/
  | ark
  /-- SUB, SubBytes (R94). -/
  | sub
  /-- SHR, ShiftRows (R95). -/
  | shr
  /-- MIX, MixColumns (R96). -/
  | mix
  /-- ROUND, the four stages as one step (R98). -/
  | round
  /-- KEXP, one key-schedule step (R108). -/
  | kexp
deriving DecidableEq, Repr

/-- What the host presents: a command word and a data operand (R40). -/
structure Command where
  cw : BitVec 8
  din : Block
deriving DecidableEq, Repr

/-- Why a command word is reserved: the classes of R49, in the order the decoder tries them. -/
inductive Reserved where
  /-- The major opcode is 0x0, 0xE or 0xF. -/
  | opcode
  /-- The field `z` is not 00. -/
  | zField
  /-- The field `b` is not 00 and the opcode is not 7. -/
  | bField
  /-- The word is 0x70: GFMUL with multiplier 0. -/
  | multiplierZero
deriving DecidableEq, Repr

/-- The status of a response: exactly four (R44, M3). -/
inductive Status where
  /-- OK: the command executed as its rule says. -/
  | ok
  /-- E_ILLEGAL: the command word is reserved. -/
  | illegal
  /-- E_UNINIT: the command reads a register that holds no value. -/
  | uninit
  /-- E_HALTED: FLT was already 1 and the command was refused. -/
  | halted
deriving DecidableEq, Repr

/-- The two causes of a fault (R112). -/
inductive Cause where
  /-- E_ILLEGAL, code 1. -/
  | illegal
  /-- E_UNINIT, code 2. -/
  | uninit
deriving DecidableEq, Repr

/-- A response: a status and a data result (R43). -/
structure Response where
  st : Status
  dout : Block
deriving DecidableEq, Repr

/-- One thing the host does between two steps (R138). -/
inductive HostEvent where
  /-- The host presents a command (R40). -/
  | command (c : Command)
  /-- The host asserts reset, with or without a command presented beside it (R119, R126). -/
  | reset (beside : Option Command)
deriving DecidableEq, Repr

/-- A line of the assembler, after its text is read: the commands of R52 and the pseudo-instructions of R53.
GFMUL carries its multiplier as the number the programmer wrote. -/
inductive AsmLine where
  | lds (din : Block)
  | ldk (din : Block)
  | rds
  | rdk
  | rdst
  | sbox (x : Byte)
  | gfmul (b : Nat) (x : Byte)
  | ark
  | sub
  | shr
  | mix
  | round
  | kexp
  /-- XTIME: GFMUL by 2 (R53). -/
  | xtime (x : Byte)
  /-- ENC1: the round with both subkeys supplied (R53). -/
  | enc1 (pt k0 k1 : Block)
  /-- ENC1K: the round with round key 1 derived (R53). -/
  | enc1k (pt k0 : Block)
deriving DecidableEq, Repr

/-- Why the assembler rejects a line (R52). -/
inductive AsmError where
  /-- The mnemonic is none of R52 and R53. -/
  | unknownMnemonic
  /-- The operands do not have the form R52 gives the mnemonic. -/
  | badOperands
  /-- GFMUL with a multiplier outside 1, 2, 3. -/
  | badMultiplier
deriving DecidableEq, Repr

end Sys2Proof
end

