-- ==== Sys2Proof/WellFormed.lean ====
section
/-! DEFINITION. Well-formed commands and assembler lines (spec 30_encoding.md R42, R46, R52).

A term of `Instr` needs no check of its own: its operands are exactly the bits R42 says the command uses, so every term
has an encoding. What can be ill-formed is a command as the host presents it and a line as the programmer writes it. -/

namespace Sys2Proof

/-- The fifteen legal command words of R46. -/
def legalWords : List (BitVec 8) :=
  [0x10, 0x20, 0x30, 0x40, 0x50, 0x60, 0x71, 0x72, 0x73, 0x80, 0x90, 0xA0, 0xB0, 0xC0, 0xD0]

/-- How many low bits of `din` a command word uses (R42). -/
def usedBits (cw : BitVec 8) : Nat :=
  if cw = 0x10 ∨ cw = 0x20 then 128
  else if cw = 0x60 ∨ cw = 0x71 ∨ cw = 0x72 ∨ cw = 0x73 then 8
  else 0

/-- The command word is legal (R46). -/
def Command.legalWord (c : Command) : Bool := legalWords.contains c.cw

/-- Every bit of `din` that the command does not use is zero, as the canonical assembler emits it (R42, R52). -/
def Command.ignoredZero (c : Command) : Bool := c.din >>> usedBits c.cw == 0

/-- A command as the canonical assembler emits it (R52). -/
def Command.wellFormed (c : Command) : Bool := c.legalWord && c.ignoredZero

/-- An assembler line whose multiplier, if it has one, is 1, 2 or 3 (R52). -/
def AsmLine.wellFormed : AsmLine → Bool
  | .gfmul b _ => b == 1 || b == 2 || b == 3
  | .lds _ => true
  | .ldk _ => true
  | .rds => true
  | .rdk => true
  | .rdst => true
  | .sbox _ => true
  | .ark => true
  | .sub => true
  | .shr => true
  | .mix => true
  | .round => true
  | .kexp => true
  | .xtime _ => true
  | .enc1 _ _ _ => true
  | .enc1k _ _ => true

end Sys2Proof
end

