-- ==== Sys2Proof/Decode.lean ====
section
/-! DEFINITION. Decoding a command, total on all 256 command words, and encoding an instruction
(spec 30_encoding.md R41 to R49). -/

namespace Sys2Proof

/-- The field `opc`, bits 7:4 of the command word (R41). -/
def opcField (cw : BitVec 8) : BitVec 4 := cw.extractLsb' 4 4

/-- The field `z`, bits 3:2 of the command word (R41). -/
def zField (cw : BitVec 8) : BitVec 2 := cw.extractLsb' 2 2

/-- The field `b`, bits 1:0 of the command word (R41). -/
def bField (cw : BitVec 8) : BitVec 2 := cw.extractLsb' 0 2

/-- The operand Byte of SBOX and GFMUL: `din[7:0]` (R42). -/
def byteOperand (din : Block) : Byte := din.extractLsb' 0 8

/-- `zext_128` (R7). -/
def zext128 (x : Byte) : Block := x.setWidth 128

/-- The command word of each row (R46). -/
def Opcode.word : Opcode → BitVec 8
  | .lds => 0x10
  | .ldk => 0x20
  | .rds => 0x30
  | .rdk => 0x40
  | .rdst => 0x50
  | .sbox => 0x60
  | .gfmul1 => 0x71
  | .gfmul2 => 0x72
  | .gfmul3 => 0x73
  | .ark => 0x80
  | .sub => 0x90
  | .shr => 0xA0
  | .mix => 0xB0
  | .round => 0xC0
  | .kexp => 0xD0

/-- Why a word that matches no row is reserved (R49). -/
def reservedReason (cw : BitVec 8) : Reserved :=
  if opcField cw = 0x0 ∨ opcField cw = 0xE ∨ opcField cw = 0xF then .opcode
  else if zField cw ≠ 0 then .zField
  else if opcField cw = 7 then .multiplierZero
  else .bField

/-- The decoder: an exact match of all eight bits against one row of R46, else the word is reserved (R41, R47, R49). -/
def decodeWord (cw : BitVec 8) : Except Reserved Opcode :=
  match cw with
  | 0x10#8 => .ok .lds
  | 0x20#8 => .ok .ldk
  | 0x30#8 => .ok .rds
  | 0x40#8 => .ok .rdk
  | 0x50#8 => .ok .rdst
  | 0x60#8 => .ok .sbox
  | 0x71#8 => .ok .gfmul1
  | 0x72#8 => .ok .gfmul2
  | 0x73#8 => .ok .gfmul3
  | 0x80#8 => .ok .ark
  | 0x90#8 => .ok .sub
  | 0xA0#8 => .ok .shr
  | 0xB0#8 => .ok .mix
  | 0xC0#8 => .ok .round
  | 0xD0#8 => .ok .kexp
  | w => .error (reservedReason w)

/-- The operand each command takes from `din` (R42). -/
def withOperands (op : Opcode) (din : Block) : Instr :=
  match op with
  | .lds => .lds din
  | .ldk => .ldk din
  | .rds => .rds
  | .rdk => .rdk
  | .rdst => .rdst
  | .sbox => .sbox (byteOperand din)
  | .gfmul1 => .gfmul1 (byteOperand din)
  | .gfmul2 => .gfmul2 (byteOperand din)
  | .gfmul3 => .gfmul3 (byteOperand din)
  | .ark => .ark
  | .sub => .sub
  | .shr => .shr
  | .mix => .mix
  | .round => .round
  | .kexp => .kexp

/-- The instruction a command stands for, or why its word is reserved (R47). -/
def decode (c : Command) : Except Reserved Instr :=
  (decodeWord c.cw).map (fun op => withOperands op c.din)

/-- The row of an instruction. -/
def Instr.opcode : Instr → Opcode
  | .lds _ => .lds
  | .ldk _ => .ldk
  | .rds => .rds
  | .rdk => .rdk
  | .rdst => .rdst
  | .sbox _ => .sbox
  | .gfmul1 _ => .gfmul1
  | .gfmul2 _ => .gfmul2
  | .gfmul3 _ => .gfmul3
  | .ark => .ark
  | .sub => .sub
  | .shr => .shr
  | .mix => .mix
  | .round => .round
  | .kexp => .kexp

/-- The data operand of an instruction, zero in every ignored bit (R52). -/
def Instr.dataOperand : Instr → Block
  | .lds b => b
  | .ldk b => b
  | .sbox x => zext128 x
  | .gfmul1 a => zext128 a
  | .gfmul2 a => zext128 a
  | .gfmul3 a => zext128 a
  | .rds => 0
  | .rdk => 0
  | .rdst => 0
  | .ark => 0
  | .sub => 0
  | .shr => 0
  | .mix => 0
  | .round => 0
  | .kexp => 0

/-- The command of an instruction, as the canonical assembler emits it (R46, R52). -/
def encode (i : Instr) : Command := ⟨i.opcode.word, i.dataOperand⟩

/-- A command laid out as one number: the command word in bits 7:0 and `din` in bits 135:8, bits at or above `nbits`
taken as zero. DESIGN CHOICE (log 3): the spec gives the two ports and no order between them; unsafe, since the order is
this model's own. -/
def commandOfTableWord (nbits w : Nat) : Command :=
  ⟨BitVec.ofNat 8 (w % 2 ^ nbits), BitVec.ofNat 128 (w % 2 ^ nbits / 256)⟩

/-- The instruction the decoder reads from a word numbered as spec/opcode_table.json numbers it. -/
def decodeTableWord (nbits w : Nat) : Option Instr := (decode (commandOfTableWord nbits w)).toOption

end Sys2Proof
end

