-- ==== Sys2Proof/Machine/GaloisField.lean ====
section
/-! DEFINITION. Multiplication by 1, 2 and 3 in GF(2^8) modulo 0x11B (spec 42_gfmul.md R76 to R82). -/

namespace Sys2Proof

/-- The reduction constant 0x1B (R6, R76). -/
def reductionConstant : Byte := 0x1B

/-- `xtime(a)`: shift left within eight bits, and fold back with 0x1B if the bit shifted out was 1 (R76). -/
def xtime (a : Byte) : Byte := if a.msb then (a <<< 1) ^^^ reductionConstant else a <<< 1

/-- `gf_mul(a, b)` for b in {1, 2, 3} (R77 to R80). -/
def gfMul (a : Byte) (b : Multiplier) : Byte :=
  match b with
  | .one => a
  | .two => xtime a
  | .three => xtime a ^^^ a

end Sys2Proof
end

