-- ==== Sys2Proof/Config.lean ====
section
/-! DEFINITION. What the spec leaves unspecified: the contents of `S` and `K` after a reset (10_state.md R23,
70_reset_and_hazards.md R126). Every other parameter is fixed by the spec (00_scope.md R6). -/

namespace Sys2Proof

/-- What `S` physically holds after the `n`-th reset and before the first LDS: unspecified (R23, R126). A free value: it
has no body, so nothing can be proved about it. DESIGN CHOICE (log 2), unsafe only in that one number of resets always
gives one content. -/
opaque Config.unspecifiedS : Nat → AesState

/-- What `K` physically holds after the `n`-th reset and before the first LDK: unspecified (R23, R126). A free value, as
`Config.unspecifiedS`. DESIGN CHOICE (log 2). -/
opaque Config.unspecifiedK : Nat → RoundKey

end Sys2Proof
end

