-- ==== Sys2Proof/Machine/State.lean ====
section
/-! DEFINITION. The state of the AES round core (spec 10_state.md), the model's own host side beside it, the reset
state (R23, R126), and the reasons a step of the model can stop. -/

namespace Sys2Proof.Machine

/-- The machine: the registers `S` and `K`, the flags `SV`, `KV`, `FLT` and `CAUSE` (R11 to R16), and three fields of the
model's own (logs 1, 2, 15). The S-box ROM and the Rcon ROM are constants and no state (R19); STATUS is a view of the
flags and has no storage (R17). -/
structure State where
  /-- `S`, the state register (R11). It holds a value of the spec only while `sv` is true (R15). -/
  regS : AesState
  /-- `K`, the round-key register (R12). It holds a value of the spec only while `kv` is true (R15). -/
  regK : RoundKey
  /-- `SV`: some LDS has written `S` since the last reset (R15). -/
  sv : Bool
  /-- `KV`: some LDK has written `K` since the last reset (R15). -/
  kv : Bool
  /-- `FLT`: a command has faulted since the last reset (R16). -/
  flt : Bool
  /-- `CAUSE`: the code of the first fault since the last reset, 0 if none (R16). -/
  cause : BitVec 3
  /-- The model's own: how many resets have been asserted since the start; it only picks free values (log 2). -/
  resets : Nat
  /-- The model's own: what the host will do, next event first (R10, R138, log 1). -/
  host : List HostEvent
  /-- The model's own: the responses given so far, oldest first (R137, log 15). -/
  responses : List Response
deriving DecidableEq, Repr

/-- Reasons for a step of the model to stop with a fault: there are none. The spec's faults (R112) are not stops: the
core records them, answers, and is ready for the next command, so they are next states. No constructor, so nobody
raises one (log 18). -/
inductive Fault where
deriving DecidableEq, Repr

/-- Reasons for a step of the model to refuse. -/
inductive Refusal where
  /-- Raised by an arm of `exec` for an instruction that has no meaning yet. Safe: the model stops where the hardware goes
  on. No arm raises it now. -/
  | notModelled (mnemonic : String)
deriving DecidableEq, Repr

/-- The machine right after power-on, which is a reset (R23, R126). `S` and `K` hold what the spec leaves unspecified, a
free value each (log 2); the host has presented nothing and read nothing (log 1). -/
def State.reset : State where
  regS := Config.unspecifiedS 0
  regK := Config.unspecifiedK 0
  sv := false
  kv := false
  flt := false
  cause := 0
  resets := 0
  host := []
  responses := []

end Sys2Proof.Machine
end

