-- ==== Sys2Proof/Machine/Flags.lean ====
section
/-! DEFINITION. Codes and views of the flags: status codes (30_encoding.md R44), cause codes (60_exceptions.md R112) and the
STATUS view (10_state.md R17). No command computes an arithmetic flag: the hardware has none (40_transfer.md R59). -/

namespace Sys2Proof.Machine

/-- The 3-bit code of a response status (R44). -/
def statusCode : Status → BitVec 3
  | .ok => 0
  | .illegal => 1
  | .uninit => 2
  | .halted => 7

/-- The 3-bit code a fault leaves in CAUSE (R112). -/
def causeCode : Cause → BitVec 3
  | .illegal => 1
  | .uninit => 2

/-- The status a faulting command answers with: `respond(c, 0)` (R114). -/
def causeStatus : Cause → Status
  | .illegal => .illegal
  | .uninit => .uninit

/-- `STATUS = 0 || CAUSE[2:0] || 0 || FLT || KV || SV`, bit 7 first (R17, R66). -/
def statusView (s : State) : Byte :=
  (0#1 ++ s.cause ++ 0#1 ++ BitVec.ofBool s.flt ++ BitVec.ofBool s.kv ++ BitVec.ofBool s.sv : BitVec 8)

end Sys2Proof.Machine
end

