-- ==== Sys2Proof/Machine/Ops.lean ====
section
/-! DEFINITION. The shared operations: answering, writing the registers, taking a fault, reset, the order of checks of one
command, and the host's next event (spec 30_encoding.md R43, R48; 60_exceptions.md R112 to R116, R119;
70_reset_and_hazards.md R126). -/

namespace Sys2Proof.Machine

/-- `respond(st, d)`: the one response of the current command (R8, R43). -/
def respond (st : Status) (d : Block) (s : State) : State := { s with responses := s.responses ++ [⟨st, d⟩] }

/-- `S <- v`: all sixteen Bytes at once (R8). -/
def writeS (v : AesState) (s : State) : State := { s with regS := v }

/-- `K <- v`: all four Words at once (R8). -/
def writeK (v : RoundKey) (s : State) : State := { s with regK := v }

/-- `S <- v ; SV <- 1`, which LDS alone does (R15, R60). -/
def loadS (v : AesState) (s : State) : State := { s with regS := v, sv := true }

/-- `K <- v ; KV <- 1`, which LDK alone does (R15, R61). -/
def loadK (v : RoundKey) (s : State) : State := { s with regK := v, kv := true }

/-- The flags of a fault: `FLT <- 1`, and `CAUSE <- c` if FLT was 0 (R114). -/
def recordFault (c : Cause) (s : State) : State :=
  { s with cause := if s.flt then s.cause else causeCode c, flt := true }

/-- Fault entry, `raise Fault(c)`: nothing but FLT and CAUSE changes, and the response is `(c, 0)` (R114). -/
def raiseFault (c : Cause) (s : State) : State := respond (causeStatus c) 0 (recordFault c s)

/-- A command presented while halted: `respond(7, 0)` and nothing else (R48 step 1, R115). -/
def refuseHalted (s : State) : State := respond .halted 0 s

/-- Reset, the only way out of the halted state (R116, R126): the flags are cleared and the contents of `S` and `K` become
unspecified, a free value each (log 2). No response. -/
def resetCore (s : State) : State :=
  { s with
    regS := Config.unspecifiedS (s.resets + 1)
    regK := Config.unspecifiedK (s.resets + 1)
    sv := false
    kv := false
    flt := false
    cause := 0
    resets := s.resets + 1 }

/-- Which data registers a command reads (R22). -/
structure Reads where
  readsS : Bool
  readsK : Bool
deriving DecidableEq, Repr

/-- Reads neither register. -/
def readsNone : Reads := ⟨false, false⟩

/-- Reads `S`. -/
def readsOnlyS : Reads := ⟨true, false⟩

/-- Reads `K`. -/
def readsOnlyK : Reads := ⟨false, true⟩

/-- Reads `S` and `K`. -/
def readsBoth : Reads := ⟨true, true⟩

/-- A register the command reads has its valid flag 0 (R48 step 3, R112). -/
def missing (rd : Reads) (s : State) : Bool := (rd.readsS && !s.sv) || (rd.readsK && !s.kv)

/-- Steps 1, 3 and 4 of R48 for a command whose word is legal: refused while halted; `E_UNINIT` if a register it reads
holds no value; else its own rule. -/
def runCommand (rd : Reads) (effect : State → State) (s : State) : Host.Outcome State Fault Refusal :=
  if s.flt then .next (refuseHalted s)
  else if missing rd s then .next (raiseFault .uninit s)
  else .next (effect s)

/-- Steps 1 and 2 of R48 for a reserved word: refused while halted, else `E_ILLEGAL` (R49, R113). -/
def reservedWord (s : State) : State := if s.flt then refuseHalted s else raiseFault .illegal s

/-- The host's next event and the state once the host has presented it (R36, R130). `none`: the host idles (R50). -/
def nextEvent (s : State) : Option (HostEvent × State) :=
  match s.host with
  | [] => none
  | e :: rest => some (e, { s with host := rest })

/-- A step with nothing presented changes nothing (R50). DESIGN CHOICE (log 5), safe. -/
def idle (s : State) : State := s

/-- The state in which the host is about to present the command `c`. -/
def presentCommand (c : Command) (s : State) : State := { s with host := .command c :: s.host }

end Sys2Proof.Machine
end

