-- ==== Sys2Proof/Machine/ByteCommands.lean ====
section
/-! DEFINITION. The one-Byte commands SBOX (spec 41_sbox.md R74) and GFMUL (42_gfmul.md R81). They read and write no
register. -/

namespace Sys2Proof.Machine

/-- A command that answers with one Byte, zero-extended, and writes no register (R43). -/
def answerByte (y : Byte) (s : State) : Host.Outcome State Fault Refusal :=
  runCommand readsNone (respond .ok (zext128 y)) s

/-- SBOX (R74). -/
def execSbox (x : Byte) (s : State) : Host.Outcome State Fault Refusal := answerByte (lookup x) s

/-- GFMUL 1 (R77, R81). -/
def execGfmul1 (a : Byte) (s : State) : Host.Outcome State Fault Refusal := answerByte (gfMul a .one) s

/-- GFMUL 2 (R78, R81). -/
def execGfmul2 (a : Byte) (s : State) : Host.Outcome State Fault Refusal := answerByte (gfMul a .two) s

/-- GFMUL 3 (R79, R81). -/
def execGfmul3 (a : Byte) (s : State) : Host.Outcome State Fault Refusal := answerByte (gfMul a .three) s

end Sys2Proof.Machine
end

