-- ==== Sys2Proof/Machine/Operands.lean ====
section
/-! DEFINITION. How 128 bits become a State and four Words, and back (spec 20_memory.md R29, 40_transfer.md R56 to R58,
10_state.md R13), with the index notation the rules use. -/

namespace Sys2Proof

/-- `w[j]`, byte j of a Word, `w[0]` the leftmost (R7, R30). -/
def Word.byte (w : Word) (j : Fin 4) : Byte :=
  match j with
  | 0 => w.b0
  | 1 => w.b1
  | 2 => w.b2
  | 3 => w.b3

/-- The Word whose byte j is `f j`. -/
def Word.ofFn (f : Fin 4 → Byte) : Word := ⟨f 0, f 1, f 2, f 3⟩

/-- Column c of a State (R11). -/
def AesState.column (s : AesState) (c : Fin 4) : Word :=
  match c with
  | 0 => s.col0
  | 1 => s.col1
  | 2 => s.col2
  | 3 => s.col3

/-- `s[r][c]`: the Byte at row r, column c (R7, R11). -/
def AesState.cell (s : AesState) (r c : Fin 4) : Byte := (s.column c).byte r

/-- The State whose Byte at row r, column c is `f r c`. -/
def AesState.ofFn (f : Fin 4 → Fin 4 → Byte) : AesState :=
  ⟨Word.ofFn (fun r => f r 0), Word.ofFn (fun r => f r 1), Word.ofFn (fun r => f r 2), Word.ofFn (fun r => f r 3)⟩

/-- `K[i]`: Word i of a round key (R12). -/
def RoundKey.word (k : RoundKey) (i : Fin 4) : Word :=
  match i with
  | 0 => k.w0
  | 1 => k.w1
  | 2 => k.w2
  | 3 => k.w3

/-- The round key whose byte j of Word i is `f i j`. -/
def RoundKey.ofFn (f : Fin 4 → Fin 4 → Byte) : RoundKey :=
  ⟨Word.ofFn (f 0), Word.ofFn (f 1), Word.ofFn (f 2), Word.ofFn (f 3)⟩

/-- `byte_k(B) = B[127-8k : 120-8k]` (R29). -/
def byteOfBlock (k : Fin 16) (b : Block) : Byte := b.extractLsb' (120 - 8 * k.val) 8

/-- The Block whose byte k is `f k`, byte 0 most significant (R29). -/
def blockOfBytes (f : Fin 16 → Byte) : Block :=
  (f 0 ++ (f 1 ++ (f 2 ++ (f 3 ++ (f 4 ++ (f 5 ++ (f 6 ++ (f 7 ++ (f 8 ++ (f 9 ++ (f 10 ++ (f 11 ++ (f 12 ++ (f 13 ++
    (f 14 ++ f 15)))))))))))))) : BitVec (8 + (8 + (8 + (8 + (8 + (8 + (8 + (8 + (8 + (8 + (8 + (8 + (8 + (8 + (8 +
    8))))))))))))))))

/-- The index `4i + j` of byte j of group i, in a Block of sixteen bytes (R56, R58). -/
def byteIndex (i j : Fin 4) : Fin 16 := ⟨4 * i.val + j.val, by omega⟩

/-- `k div 4` (R57, R58). -/
def groupOf (k : Fin 16) : Fin 4 := ⟨k.val / 4, by omega⟩

/-- `k mod 4` (R57, R58). -/
def placeOf (k : Fin 16) : Fin 4 := ⟨k.val % 4, by omega⟩

/-- `block_to_state`: `s[r][c] = byte_(4c+r)(B)` (R56). -/
def blockToState (b : Block) : AesState := .ofFn fun r c => byteOfBlock (byteIndex c r) b

/-- `state_to_block`: `byte_k(B) = s[k mod 4][k div 4]` (R57). -/
def stateToBlock (s : AesState) : Block := blockOfBytes fun k => s.cell (placeOf k) (groupOf k)

/-- `block_to_words`: `wi[j] = byte_(4i+j)(B)` (R58). -/
def blockToWords (b : Block) : RoundKey := .ofFn fun i j => byteOfBlock (byteIndex i j) b

/-- `words_to_block`: `byte_k(B) = w(k div 4)[k mod 4]` (R58). -/
def wordsToBlock (k : RoundKey) : Block := blockOfBytes fun n => (k.word (groupOf n)).byte (placeOf n)

/-- `K` seen as a State: `Kst[r][c] = K[c][r]` (R13). -/
def keyState (k : RoundKey) : AesState := .ofFn fun r c => (k.word c).byte r

end Sys2Proof
end

