-- ==== Sys2Proof/Machine/KeyFunctions.lean ====
section
/-! DEFINITION. One key-schedule step (spec 44_keyschedule.md R100 to R107, R110). -/

namespace Sys2Proof

/-- Byte-wise XOR of two Words (R105). -/
def wordXor (u v : Word) : Word := ⟨u.b0 ^^^ v.b0, u.b1 ^^^ v.b1, u.b2 ^^^ v.b2, u.b3 ^^^ v.b3⟩

/-- `RotWord(w) = (w[1], w[2], w[3], w[0])` (R101). -/
def rotWord (w : Word) : Word := ⟨w.b1, w.b2, w.b3, w.b0⟩

/-- `SubWord(w)`: the S-box on each Byte (R102). -/
def subWord (w : Word) : Word := ⟨lookup w.b0, lookup w.b1, lookup w.b2, lookup w.b3⟩

/-- `g`, from the input word w3 and Rcon (R104). -/
def keyG (w3 : Word) : Word := wordXor (subWord (rotWord w3)) rconRom

/-- `KeyExpandStep`: w4 to w7, chained in this order, all from the input words (R105, R107, R110). -/
def keyExpandStep (k : RoundKey) : RoundKey :=
  let w4 := wordXor k.w0 (keyG k.w3)
  let w5 := wordXor w4 k.w1
  let w6 := wordXor w5 k.w2
  let w7 := wordXor w6 k.w3
  ⟨w4, w5, w6, w7⟩

end Sys2Proof
end

