-- ==== Sys2Proof/Machine/KeySchedule.lean ====
section
/-! DEFINITION. The key-schedule command KEXP (spec 44_keyschedule.md R108, R109). -/

namespace Sys2Proof.Machine

/-- KEXP: one key-schedule step in place, always with the one Rcon (R108, R109). -/
def execKexp (s : State) : Host.Outcome State Fault Refusal :=
  runCommand readsOnlyK (fun s => respond .ok 0 (writeK (keyExpandStep s.regK) s)) s

end Sys2Proof.Machine
end

