-- ==== Sys2Proof/Machine/RoundFunctions.lean ====
section
/-! DEFINITION. The stages of the round as functions from State to State (spec 43_round.md R85 to R91). -/

namespace Sys2Proof

/-- `AddRoundKey(s, k)`, the key given as a State (R85). -/
def addRoundKey (s k : AesState) : AesState := .ofFn fun r c => s.cell r c ^^^ k.cell r c

/-- `SubBytes(s)` (R86). -/
def subBytes (s : AesState) : AesState := .ofFn fun r c => lookup (s.cell r c)

/-- `ShiftRows(s)`: `out[r][c] = s[r][(c + r) mod 4]`; the sum of two indexes below 4 is taken modulo 4 (R87). -/
def shiftRows (s : AesState) : AesState := .ofFn fun r c => s.cell r (c + r)

/-- `MixColumn(a, b, c, d)`: the product of one column with the fixed matrix (R88). -/
def mixColumn (w : Word) : Word where
  b0 := gfMul w.b0 .two ^^^ gfMul w.b1 .three ^^^ gfMul w.b2 .one ^^^ gfMul w.b3 .one
  b1 := gfMul w.b0 .one ^^^ gfMul w.b1 .two ^^^ gfMul w.b2 .three ^^^ gfMul w.b3 .one
  b2 := gfMul w.b0 .one ^^^ gfMul w.b1 .one ^^^ gfMul w.b2 .two ^^^ gfMul w.b3 .three
  b3 := gfMul w.b0 .three ^^^ gfMul w.b1 .one ^^^ gfMul w.b2 .one ^^^ gfMul w.b3 .two

/-- `MixColumns(s)`: each column on its own, from its values before the stage (R89). -/
def mixColumns (s : AesState) : AesState :=
  ⟨mixColumn s.col0, mixColumn s.col1, mixColumn s.col2, mixColumn s.col3⟩

/-- `Round(s, k)`: SubBytes, ShiftRows, MixColumns, AddRoundKey (R91). -/
def roundFunction (s k : AesState) : AesState := addRoundKey (mixColumns (shiftRows (subBytes s))) k

/-- `Encrypt1(P, k0, k1)`: the whole computation of the core (R91). -/
def encrypt1 (p : Block) (k0 k1 : RoundKey) : AesState :=
  roundFunction (addRoundKey (blockToState p) (keyState k0)) (keyState k1)

end Sys2Proof
end

