-- ==== Sys2Proof/Machine/Round.lean ====
section
/-! DEFINITION. The round commands ARK, SUB, SHR, MIX, ROUND (spec 43_round.md R93 to R98). -/

namespace Sys2Proof.Machine

/-- A command that replaces `S` by `f S` and answers `(0, 0)` (R43). -/
def stage (rd : Reads) (f : State → AesState) (s : State) : Host.Outcome State Fault Refusal :=
  runCommand rd (fun s => respond .ok 0 (writeS (f s) s)) s

/-- ARK (R93). -/
def execArk (s : State) : Host.Outcome State Fault Refusal :=
  stage readsBoth (fun s => addRoundKey s.regS (keyState s.regK)) s

/-- SUB (R94). -/
def execSub (s : State) : Host.Outcome State Fault Refusal := stage readsOnlyS (fun s => subBytes s.regS) s

/-- SHR (R95). -/
def execShr (s : State) : Host.Outcome State Fault Refusal := stage readsOnlyS (fun s => shiftRows s.regS) s

/-- MIX (R96). -/
def execMix (s : State) : Host.Outcome State Fault Refusal := stage readsOnlyS (fun s => mixColumns s.regS) s

/-- ROUND: the four stages as one step (R98). -/
def execRound (s : State) : Host.Outcome State Fault Refusal :=
  stage readsBoth (fun s => roundFunction s.regS (keyState s.regK)) s

end Sys2Proof.Machine
end

