-- ==== Sys2Proof/Machine/Transfer.lean ====
section
/-! DEFINITION. The transfer commands LDS, LDK, RDS, RDK, RDST (spec 40_transfer.md R60 to R66). -/

namespace Sys2Proof.Machine

/-- LDS (R60). -/
def execLds (din : Block) (s : State) : Host.Outcome State Fault Refusal :=
  runCommand readsNone (fun s => respond .ok 0 (loadS (blockToState din) s)) s

/-- LDK (R61). -/
def execLdk (din : Block) (s : State) : Host.Outcome State Fault Refusal :=
  runCommand readsNone (fun s => respond .ok 0 (loadK (blockToWords din) s)) s

/-- RDS (R62). -/
def execRds (s : State) : Host.Outcome State Fault Refusal :=
  runCommand readsOnlyS (fun s => respond .ok (stateToBlock s.regS) s) s

/-- RDK (R63). -/
def execRdk (s : State) : Host.Outcome State Fault Refusal :=
  runCommand readsOnlyK (fun s => respond .ok (wordsToBlock s.regK) s) s

/-- RDST: executed with status OK even while halted (R48 step 1, R66, R115). -/
def execRdst (s : State) : Host.Outcome State Fault Refusal :=
  .next (respond .ok (zext128 (statusView s)) s)

end Sys2Proof.Machine
end

