-- ==== Sys2Proof/Machine/Dispatch.lean ====
section
/-! DEFINITION. One arm for each instruction, one meaning for each arm (spec 30_encoding.md R46). -/

namespace Sys2Proof.Machine

/-- What the core does with a command whose word is legal (R48 steps 1, 3 and 4). -/
def exec (i : Instr) (s : State) : Host.Outcome State Fault Refusal :=
  match i with
  | .lds din => Sys2Proof.Machine.execLds din s
  | .ldk din => Sys2Proof.Machine.execLdk din s
  | .rds => Sys2Proof.Machine.execRds s
  | .rdk => Sys2Proof.Machine.execRdk s
  | .rdst => Sys2Proof.Machine.execRdst s
  | .sbox x => Sys2Proof.Machine.execSbox x s
  | .gfmul1 a => Sys2Proof.Machine.execGfmul1 a s
  | .gfmul2 a => Sys2Proof.Machine.execGfmul2 a s
  | .gfmul3 a => Sys2Proof.Machine.execGfmul3 a s
  | .ark => Sys2Proof.Machine.execArk s
  | .sub => Sys2Proof.Machine.execSub s
  | .shr => Sys2Proof.Machine.execShr s
  | .mix => Sys2Proof.Machine.execMix s
  | .round => Sys2Proof.Machine.execRound s
  | .kexp => Sys2Proof.Machine.execKexp s

end Sys2Proof.Machine
end

