-- ==== Sys2Proof/Machine/Step.lean ====
section
/-! DEFINITION. One step: the host's next event, if it has one (spec 10_state.md R10; 30_encoding.md R48; 60_exceptions.md
R119). -/

namespace Sys2Proof.Machine

/-- One step of the machine. Reset wins over a command presented beside it, which is dropped with no response (R119); a
command is decoded, and a legal one is run by `exec`, a reserved one by `reservedWord` (R48). -/
def step (s : State) : Host.Outcome State Fault Refusal :=
  match nextEvent s with
  | none => .next (idle s)
  | some (.reset _, t) => .next (resetCore t)
  | some (.command c, t) =>
    match decode c with
    | .ok i => exec i t
    | .error _ => .next (reservedWord t)

/-- The state in which the host's next event is the command that the table word `w` of `nbits` bits stands for; nothing
else differs (logs 1 and 3). -/
def State.withFetchWord (s : State) (nbits w : Nat) : State := presentCommand (commandOfTableWord nbits w) s

end Sys2Proof.Machine
end

