-- ==== Sys2Proof/Machine/HostText.lean ====
section
/-! DEFINITION. Text on the host's side of the interface: hexadecimal digits, the plaintext's Block (spec 40_transfer.md R64) and
the output text (R65). No rule of the hardware depends on it (00_scope.md R4). -/

namespace Sys2Proof

/-- One hexadecimal digit; the spec does not fix the case of the letters (N13), so it is an argument. -/
def hexDigit (upper : Bool) (d : BitVec 4) : Char :=
  if d.toNat < 10 then Char.ofNat (48 + d.toNat)
  else if upper then Char.ofNat (55 + d.toNat)
  else Char.ofNat (87 + d.toNat)

/-- A Byte as two digits, the high nibble first (R7). -/
def hexByte (upper : Bool) (b : Byte) : List Char :=
  [hexDigit upper (b.extractLsb' 4 4), hexDigit upper (b.extractLsb' 0 4)]

/-- A Word as eight digits, its leftmost Byte first (R30). -/
def hexWord (upper : Bool) (w : Word) : List Char :=
  hexByte upper w.b0 ++ hexByte upper w.b1 ++ hexByte upper w.b2 ++ hexByte upper w.b3

/-- A Block as 32 digits, most significant Byte first (R7). -/
def hexBlock (upper : Bool) (b : Block) : List Char :=
  let k := blockToWords b
  hexWord upper k.w0 ++ hexWord upper k.w1 ++ hexWord upper k.w2 ++ hexWord upper k.w3

/-- The output text of R65: bytes 0 to 3, a space, bytes 4 to 7, a space, bytes 8 to 11, a space, bytes 12 to 15, a
space. -/
def blockToText (upper : Bool) (b : Block) : List Char :=
  let k := blockToWords b
  hexWord upper k.w0 ++ ' ' :: hexWord upper k.w1 ++ ' ' :: hexWord upper k.w2 ++ ' ' :: hexWord upper k.w3 ++ [' ']

/-- The Block of a plaintext of sixteen ASCII characters, character k in byte k (R64). Any other text has none: that is a
caller's error, and the spec assumes nothing for it (N11, log 13). -/
def plaintextToBlock (text : List Char) : Option Block :=
  if h : text.length = 16 then
    if text.all (fun c => c.toNat < 128) then
      some (blockOfBytes fun k => BitVec.ofNat 8 (text[k.val]'(by omega)).toNat)
    else none
  else none

end Sys2Proof
end

