-- ==== Sys2Proof/Machine/Assembler.lean ====
section
/-! DEFINITION. The assembler: what each line stands for, pseudo-instructions among them, the text of a line, and the
written form of a command (spec 30_encoding.md R52, R53). -/

namespace Sys2Proof

/-- The instructions of a line (R52) and the expansions of the pseudo-instructions (R53). A multiplier outside 1, 2, 3 is
an error: 0x70 and 0x74 are never emitted (R52). -/
def expandLine (l : AsmLine) : Except AsmError (List Instr) :=
  match l with
  | .lds b => .ok [.lds b]
  | .ldk b => .ok [.ldk b]
  | .rds => .ok [.rds]
  | .rdk => .ok [.rdk]
  | .rdst => .ok [.rdst]
  | .sbox x => .ok [.sbox x]
  | .gfmul b x =>
    match b with
    | 1 => .ok [.gfmul1 x]
    | 2 => .ok [.gfmul2 x]
    | 3 => .ok [.gfmul3 x]
    | _ => .error .badMultiplier
  | .ark => .ok [.ark]
  | .sub => .ok [.sub]
  | .shr => .ok [.shr]
  | .mix => .ok [.mix]
  | .round => .ok [.round]
  | .kexp => .ok [.kexp]
  | .xtime x => .ok [.gfmul2 x]
  | .enc1 pt k0 k1 => .ok [.ldk k0, .lds pt, .ark, .ldk k1, .round, .rds]
  | .enc1k pt k0 => .ok [.ldk k0, .lds pt, .ark, .kexp, .round, .rds, .rdk]

/-- The commands a line assembles to. -/
def assemble (l : AsmLine) : Except AsmError (List Command) := (expandLine l).map (List.map encode)

/-- A hexadecimal digit, in either case of letter (log 12). -/
def hexValue (c : Char) : Option Nat :=
  if 48 ≤ c.toNat ∧ c.toNat ≤ 57 then some (c.toNat - 48)
  else if 97 ≤ c.toNat ∧ c.toNat ≤ 102 then some (c.toNat - 87)
  else if 65 ≤ c.toNat ∧ c.toNat ≤ 70 then some (c.toNat - 55)
  else none

/-- The number that hexadecimal digits stand for, the most significant first, after the digits read so far. -/
def hexNumber (soFar : Nat) : List Char → Option Nat
  | [] => some soFar
  | c :: cs =>
    match hexValue c with
    | some d => hexNumber (16 * soFar + d) cs
    | none => none

/-- A Block operand: 32 hexadecimal digits with no prefix (R52). -/
def readBlock (cs : List Char) : Option Block :=
  if cs.length = 32 then (hexNumber 0 cs).map (BitVec.ofNat 128) else none

/-- A Byte operand: 0x and two hexadecimal digits (R52). -/
def readByte (cs : List Char) : Option Byte :=
  match cs with
  | '0' :: 'x' :: ds => if ds.length = 2 then (hexNumber 0 ds).map (BitVec.ofNat 8) else none
  | _ => none

/-- A decimal digit (R52). -/
def readDigit (cs : List Char) : Option Nat :=
  match cs with
  | [c] => if 48 ≤ c.toNat ∧ c.toNat ≤ 57 then some (c.toNat - 48) else none
  | _ => none

/-- The fields of a text between separators. -/
def splitChars (sep : Char) : List Char → List (List Char)
  | [] => [[]]
  | c :: cs =>
    if c = sep then [] :: splitChars sep cs
    else
      match splitChars sep cs with
      | [] => [[c]]
      | w :: ws => (c :: w) :: ws

/-- The text of a line before its comment (R52). -/
def dropComment (cs : List Char) : List Char := cs.takeWhile (fun c => c != ';')

/-- The operands of a line: every one but the last ends in a comma (R52). -/
def readOperands : List (List Char) → Option (List (List Char))
  | [] => some []
  | [w] => some [w]
  | w :: ws => if w.getLast? = some ',' then (readOperands ws).map (fun rest => w.dropLast :: rest) else none

/-- A line with no operand. -/
def lineOfNone (l : AsmLine) (ops : List (List Char)) : Except AsmError AsmLine :=
  if ops = [] then .ok l else .error .badOperands

/-- A line with one Block. -/
def lineOfBlock (mk : Block → AsmLine) (ops : List (List Char)) : Except AsmError AsmLine :=
  match ops.map readBlock with
  | [some b] => .ok (mk b)
  | _ => .error .badOperands

/-- A line with one Byte. -/
def lineOfByte (mk : Byte → AsmLine) (ops : List (List Char)) : Except AsmError AsmLine :=
  match ops.map readByte with
  | [some x] => .ok (mk x)
  | _ => .error .badOperands

/-- GFMUL: a multiplier and a Byte. -/
def lineOfGfmul (ops : List (List Char)) : Except AsmError AsmLine :=
  match ops with
  | [b, x] =>
    match readDigit b, readByte x with
    | some n, some y => .ok (.gfmul n y)
    | _, _ => .error .badOperands
  | _ => .error .badOperands

/-- ENC1: three Blocks. -/
def lineOfEnc1 (ops : List (List Char)) : Except AsmError AsmLine :=
  match ops.map readBlock with
  | [some pt, some k0, some k1] => .ok (.enc1 pt k0 k1)
  | _ => .error .badOperands

/-- ENC1K: two Blocks. -/
def lineOfEnc1k (ops : List (List Char)) : Except AsmError AsmLine :=
  match ops.map readBlock with
  | [some pt, some k0] => .ok (.enc1k pt k0)
  | _ => .error .badOperands

/-- A line from its mnemonic and its operands (R52, R53); mnemonics are upper case. -/
def lineOfFields (m : List Char) (ops : List (List Char)) : Except AsmError AsmLine :=
  if m = ['L', 'D', 'S'] then lineOfBlock .lds ops
  else if m = ['L', 'D', 'K'] then lineOfBlock .ldk ops
  else if m = ['R', 'D', 'S'] then lineOfNone .rds ops
  else if m = ['R', 'D', 'K'] then lineOfNone .rdk ops
  else if m = ['R', 'D', 'S', 'T'] then lineOfNone .rdst ops
  else if m = ['S', 'B', 'O', 'X'] then lineOfByte .sbox ops
  else if m = ['G', 'F', 'M', 'U', 'L'] then lineOfGfmul ops
  else if m = ['A', 'R', 'K'] then lineOfNone .ark ops
  else if m = ['S', 'U', 'B'] then lineOfNone .sub ops
  else if m = ['S', 'H', 'R'] then lineOfNone .shr ops
  else if m = ['M', 'I', 'X'] then lineOfNone .mix ops
  else if m = ['R', 'O', 'U', 'N', 'D'] then lineOfNone .round ops
  else if m = ['K', 'E', 'X', 'P'] then lineOfNone .kexp ops
  else if m = ['X', 'T', 'I', 'M', 'E'] then lineOfByte .xtime ops
  else if m = ['E', 'N', 'C', '1'] then lineOfEnc1 ops
  else if m = ['E', 'N', 'C', '1', 'K'] then lineOfEnc1k ops
  else .error .unknownMnemonic

/-- A line of assembler text (R52); `none` for a line that holds a comment or nothing. Spaces beyond the ones R52 asks for
are passed over (DESIGN CHOICE, log 12). -/
def readLine (text : List Char) : Except AsmError (Option AsmLine) :=
  match (splitChars ' ' (dropComment text)).filter (fun w => !w.isEmpty) with
  | [] => .ok none
  | m :: ws =>
    match readOperands ws with
    | some ops => (lineOfFields m ops).map some
    | none => .error .badOperands

/-- The written form of a command, `cw:din` in hexadecimal, or `cw:-` when the command ignores `din` (R52). -/
def writtenForm (c : Command) : List Char :=
  hexByte false c.cw ++ ':' ::
    (if c.legalWord && usedBits c.cw == 0 then ['-'] else hexBlock false c.din)

end Sys2Proof
end

