-- ==== Sys2Proof/Machine/SboxConstruction.lean ====
section
/-! DEFINITION. The published construction of the S-box (spec 41_sbox.md R73). The hardware stores the table and computes none of
this; statements compare the two. The construction is from general knowledge (G2): PRESUMED (log 17). -/

namespace Sys2Proof

/-- The product of two Bytes in GF(2^8) modulo 0x11B, over the low `n` bits of the second (R82). -/
def fieldMulBits : Nat → Byte → Byte → Byte
  | 0, _, _ => 0
  | n + 1, x, y => (if y.getLsbD 0 then x else 0) ^^^ fieldMulBits n (xtime x) (y >>> 1)

/-- The product of two Bytes in the field of R82. The hardware has no such multiplier (R80). -/
def fieldMul (x y : Byte) : Byte := fieldMulBits 8 x y

/-- The affine map `A` of R73. -/
def sboxAffine (y : Byte) : Byte :=
  y ^^^ y.rotateLeft 1 ^^^ y.rotateLeft 2 ^^^ y.rotateLeft 3 ^^^ y.rotateLeft 4 ^^^ 0x63

end Sys2Proof
end

