-- ==== Sys2Proof/Safety.lean ====
section
/-! DEFINITION. The terms claims use: what a step leaves alone, what a command answers, the invariants, and when a run has gone
wrong (spec 30_encoding.md R43, R44, R48; 60_exceptions.md R112 to R115; 70_reset_and_hazards.md R137). -/

namespace Sys2Proof.Machine

/-- `S`, `K`, `SV` and `KV` are as they were. -/
abbrev SameRegisters (s t : State) : Prop := t.regS = s.regS ∧ t.regK = s.regK ∧ t.sv = s.sv ∧ t.kv = s.kv

/-- `FLT` and `CAUSE` are as they were. -/
abbrev SameFaultFlags (s t : State) : Prop := t.flt = s.flt ∧ t.cause = s.cause

/-- The host's remaining events and the count of resets are as they were. -/
abbrev SameHostSide (s t : State) : Prop := t.host = s.host ∧ t.resets = s.resets

/-- Exactly one response was added, `(st, d)` (R43). -/
abbrev Answers (s t : State) (st : Status) (d : Block) : Prop := t.responses = s.responses ++ [⟨st, d⟩]

/-- The instruction writes `S` alone and answers `(0, 0)`. -/
abbrev WritesOnlyS (s t : State) : Prop :=
  t.regK = s.regK ∧ t.sv = s.sv ∧ t.kv = s.kv ∧ SameFaultFlags s t ∧ SameHostSide s t ∧ Answers s t .ok 0

/-- The instruction answers `(0, d)` and writes nothing. -/
abbrev OnlyAnswers (i : Instr) (s : State) (d : Block) : Prop :=
  ∃ t, exec i s = .next t ∧ Answers s t .ok d ∧ SameRegisters s t ∧ SameFaultFlags s t ∧ SameHostSide s t

/-- The instruction is refused with `(7, 0)` and changes no state (R115). -/
abbrev RefusedHalted (i : Instr) (s : State) : Prop :=
  ∃ t, exec i s = .next t ∧ Answers s t .halted 0 ∧ SameRegisters s t ∧ SameFaultFlags s t ∧ SameHostSide s t

/-- The instruction faults with `E_UNINIT`: `(2, 0)`, FLT 1, CAUSE 2, nothing else changed (R112, R114). -/
abbrev FaultsUninit (i : Instr) (s : State) : Prop :=
  ∃ t, exec i s = .next t ∧ Answers s t .uninit 0 ∧ SameRegisters s t ∧ t.flt = true ∧ t.cause = 2 ∧ SameHostSide s t

/-- The command words that read `S` (R22). -/
def wordsReadingS : List (BitVec 8) := [0x30, 0x80, 0x90, 0xA0, 0xB0, 0xC0]

/-- The command words that read `K` (R22). -/
def wordsReadingK : List (BitVec 8) := [0x40, 0x80, 0xC0, 0xD0]

/-- The status of the response to a command word, from the order of checks (R48, R113). -/
def expectedStatus (cw : BitVec 8) (s : State) : Status :=
  if s.flt = true then (if cw = 0x50 then .ok else .halted)
  else if cw ∉ legalWords then .illegal
  else if (cw ∈ wordsReadingS ∧ s.sv = false) ∨ (cw ∈ wordsReadingK ∧ s.kv = false) then .uninit
  else .ok

/-- The fault flags are consistent: CAUSE is 0 while FLT is 0, and 1 or 2 while FLT is 1 (R16, R44, R112). -/
abbrev State.FaultFlagsConsistent (s : State) : Prop :=
  (s.flt = false → s.cause = 0) ∧ (s.flt = true → s.cause = 1 ∨ s.cause = 2)

/-- Every response given carries data only with status OK (R43). -/
abbrev State.RefusalsCarryNoData (s : State) : Prop := ∀ r ∈ s.responses, r.st ≠ .ok → r.dout = 0

/-- A response that is not OK has been given: the run has gone wrong (R137). -/
abbrev SomeFailed (rs : List Response) : Prop := ∃ r ∈ rs, r.st ≠ .ok

/-- Two states that differ at most in what no command can read: the contents of a data register whose valid flag is 0, and
the count of resets (R15, R21). -/
abbrev SameButUnreadable (s t : State) : Prop :=
  s.sv = t.sv ∧ s.kv = t.kv ∧ s.flt = t.flt ∧ s.cause = t.cause ∧ s.host = t.host ∧ s.responses = t.responses ∧
    (s.sv = true → s.regS = t.regS) ∧ (s.kv = true → s.regK = t.regK)

/-- The host's events that present the commands `cs` in order. -/
def presenting (cs : List Command) : List HostEvent := cs.map HostEvent.command

end Sys2Proof.Machine
end

