-- ==== Sys2Proof/Certificates/Slice0/Obligations.lean ====
section
/-! DEFINITION. The statements for the provers, each a rule of spec/ or a property that follows from several. -/

open Sys2Proof Sys2Proof.Machine

/-! ## Encoding (30_encoding.md) -/

/-- R46: every legal command word, with the operand its row takes from `din`, decodes to the row's instruction. -/
def Obligations.OpcodeMapDecodes : Prop :=
  ∀ din : Block,
    decode ⟨0x10, din⟩ = .ok (.lds din) ∧
    decode ⟨0x20, din⟩ = .ok (.ldk din) ∧
    decode ⟨0x30, din⟩ = .ok .rds ∧
    decode ⟨0x40, din⟩ = .ok .rdk ∧
    decode ⟨0x50, din⟩ = .ok .rdst ∧
    decode ⟨0x60, din⟩ = .ok (.sbox (din.extractLsb' 0 8)) ∧
    decode ⟨0x71, din⟩ = .ok (.gfmul1 (din.extractLsb' 0 8)) ∧
    decode ⟨0x72, din⟩ = .ok (.gfmul2 (din.extractLsb' 0 8)) ∧
    decode ⟨0x73, din⟩ = .ok (.gfmul3 (din.extractLsb' 0 8)) ∧
    decode ⟨0x80, din⟩ = .ok .ark ∧
    decode ⟨0x90, din⟩ = .ok .sub ∧
    decode ⟨0xA0, din⟩ = .ok .shr ∧
    decode ⟨0xB0, din⟩ = .ok .mix ∧
    decode ⟨0xC0, din⟩ = .ok .round ∧
    decode ⟨0xD0, din⟩ = .ok .kexp

/-- R46, R52: decoding undoes encoding for every instruction, and encoding undoes decoding for every command as the
canonical assembler emits it. -/
def Obligations.DecodeEncodeAgree : Prop :=
  (∀ i : Instr, decode (encode i) = .ok i) ∧
  (∀ c : Command, c.wellFormed = true → ∃ i, decode c = .ok i ∧ encode i = c)

/-- What the spec infers in R47 from R41 and R46: every word matches exactly one row or is reserved, and no two rows overlap. -/
def Obligations.EveryWordMatchesOneRowOrIsReserved : Prop :=
  (∀ op op' : Opcode, op.word = op'.word → op = op') ∧
  (∀ cw : BitVec 8,
    (∃ op : Opcode, decodeWord cw = .ok op ∧ op.word = cw) ∨
    ((∃ why, decodeWord cw = .error why) ∧ ∀ op : Opcode, op.word ≠ cw))

/-- R49: the reserved words are the 241 words outside the map, they are the classes the rule lists, and executing one
raises `Fault(E_ILLEGAL)`. -/
def Obligations.ReservedWordsFault : Prop :=
  ((List.range 256).filter (fun n => !legalWords.contains (BitVec.ofNat 8 n))).length = 241 ∧
  (∀ cw : BitVec 8, cw ∉ legalWords ↔
    (cw.extractLsb' 4 4 = 0x0#4 ∨ cw.extractLsb' 4 4 = 0xE#4 ∨ cw.extractLsb' 4 4 = 0xF#4 ∨
      cw.extractLsb' 2 2 ≠ 0#2 ∨ (cw.extractLsb' 4 4 ≠ 0x7#4 ∧ cw.extractLsb' 0 2 ≠ 0#2) ∨ cw = 0x70)) ∧
  (∀ (s : State) (c : Command) (rest : List HostEvent),
    c.cw ∉ legalWords → s.host = .command c :: rest → s.flt = false →
    ∃ t, step s = .next t ∧ SameRegisters s t ∧ t.flt = true ∧ t.cause = 1 ∧ Answers s t .illegal 0 ∧
      t.host = rest ∧ t.resets = s.resets)

/-- R42: a command depends on the bits of `din` its row uses and on no others, and the canonical assembler emits zero in
the ignored ones. -/
def Obligations.IgnoredDataBitsDoNotMatter : Prop :=
  (∀ (s : State) (cw : BitVec 8) (d e : Block) (rest : List HostEvent),
    (∀ n, n < usedBits cw → d.getLsbD n = e.getLsbD n) →
    step { s with host := .command ⟨cw, d⟩ :: rest } = step { s with host := .command ⟨cw, e⟩ :: rest }) ∧
  (∀ i : Instr, (encode i).ignoredZero = true)

/-- R52: the command word and the data each line of the syntax table assembles to; every well-formed line, the
pseudo-instructions among them, assembles to commands with zero in the ignored bits, each of which decodes; any other line is
an error. -/
def Obligations.AssemblerEmitsCanonicalCommands : Prop :=
  (∀ (b : Block) (x : Byte),
    assemble (.lds b) = .ok [⟨0x10, b⟩] ∧
    assemble (.ldk b) = .ok [⟨0x20, b⟩] ∧
    assemble .rds = .ok [⟨0x30, 0⟩] ∧
    assemble .rdk = .ok [⟨0x40, 0⟩] ∧
    assemble .rdst = .ok [⟨0x50, 0⟩] ∧
    assemble (.sbox x) = .ok [⟨0x60, x.setWidth 128⟩] ∧
    assemble (.gfmul 1 x) = .ok [⟨0x71, x.setWidth 128⟩] ∧
    assemble (.gfmul 2 x) = .ok [⟨0x72, x.setWidth 128⟩] ∧
    assemble (.gfmul 3 x) = .ok [⟨0x73, x.setWidth 128⟩] ∧
    assemble .ark = .ok [⟨0x80, 0⟩] ∧
    assemble .sub = .ok [⟨0x90, 0⟩] ∧
    assemble .shr = .ok [⟨0xA0, 0⟩] ∧
    assemble .mix = .ok [⟨0xB0, 0⟩] ∧
    assemble .round = .ok [⟨0xC0, 0⟩] ∧
    assemble .kexp = .ok [⟨0xD0, 0⟩]) ∧
  (∀ l : AsmLine,
    (l.wellFormed = true →
      ∃ cs, assemble l = .ok cs ∧ cs ≠ [] ∧ ∀ c ∈ cs, c.wellFormed = true ∧ ∃ i, decode c = .ok i) ∧
    (l.wellFormed = false → assemble l = .error .badMultiplier))

/-- R53: the three expansions, each written out as command words and data. -/
def Obligations.PseudoInstructionExpansions : Prop :=
  ∀ (x : Byte) (pt k0 k1 : Block),
    assemble (.xtime x) = .ok [⟨0x72, x.setWidth 128⟩] ∧
    assemble (.xtime x) = assemble (.gfmul 2 x) ∧
    assemble (.enc1 pt k0 k1) =
      .ok [⟨0x20, k0⟩, ⟨0x10, pt⟩, ⟨0x80, 0⟩, ⟨0x20, k1⟩, ⟨0xC0, 0⟩, ⟨0x30, 0⟩] ∧
    assemble (.enc1k pt k0) =
      .ok [⟨0x20, k0⟩, ⟨0x10, pt⟩, ⟨0x80, 0⟩, ⟨0xD0, 0⟩, ⟨0xC0, 0⟩, ⟨0x30, 0⟩, ⟨0x40, 0⟩]

/-! ## Steps, checks, faults, reset (30_encoding.md R48, 60_exceptions.md, 70_reset_and_hazards.md) -/

/-- R36, R40: when the command the host presents decodes, the step is `exec` of that instruction on the state from which
the command has been taken. -/
def Obligations.StepRunsTheDecodedCommand : Prop :=
  ∀ (s : State) (c : Command) (rest : List HostEvent) (i : Instr),
    s.host = .command c :: rest → decode c = .ok i → step s = exec i { s with host := rest }

/-- The model's choice (log 5): with nothing presented a step changes nothing. -/
def Obligations.StepIdlesWithNothingPresented : Prop :=
  ∀ s : State, s.host = [] → step s = .next s

/-- R48: the order of processing of one command, with what each of the four steps does. -/
def Obligations.CommandChecksInOrder : Prop :=
  ∀ (s : State) (c : Command) (rest : List HostEvent), s.host = .command c :: rest →
    ∃ (t : State) (d : Block), step s = .next t ∧ t.host = rest ∧ t.resets = s.resets ∧
      Answers s t (expectedStatus c.cw s) d ∧
      (expectedStatus c.cw s ≠ .ok → d = 0 ∧ SameRegisters s t) ∧
      (expectedStatus c.cw s = .halted → SameFaultFlags s t) ∧
      (expectedStatus c.cw s = .illegal → t.flt = true ∧ t.cause = 1) ∧
      (expectedStatus c.cw s = .uninit → t.flt = true ∧ t.cause = 2) ∧
      (expectedStatus c.cw s = .ok → ∃ i, decode c = .ok i ∧ exec i { s with host := rest } = .next t)

/-- R115: while halted every command but RDST is refused with `(7, 0)` and changes no state at all; RDST answers with
STATUS. -/
def Obligations.HaltedCoreServesOnlyRdst : Prop :=
  ∀ (s : State) (c : Command) (rest : List HostEvent), s.flt = true → s.host = .command c :: rest →
    ∃ t, step s = .next t ∧ SameRegisters s t ∧ SameFaultFlags s t ∧ t.host = rest ∧ t.resets = s.resets ∧
      (c.cw ≠ 0x50 → Answers s t .halted 0) ∧
      (c.cw = 0x50 → Answers s t .ok ((statusView s).setWidth 128))

/-- R114: fault entry. It leaves `S`, `K`, `SV` and `KV`, sets FLT, keeps the first cause, and answers `(c, 0)`. -/
def Obligations.FaultEntry : Prop :=
  ∀ (c : Cause) (s : State),
    SameRegisters s (raiseFault c s) ∧ (raiseFault c s).flt = true ∧
    (raiseFault c s).cause = (if s.flt = false then causeCode c else s.cause) ∧
    SameHostSide s (raiseFault c s) ∧
    ∃ st, Answers s (raiseFault c s) st 0 ∧ statusCode st = causeCode c ∧
      causeCode .illegal = 1 ∧ causeCode .uninit = 2

/-- R44: the codes of the four statuses; 3 to 6 are never produced. -/
def Obligations.StatusCodesAreTheFour : Prop :=
  statusCode .ok = 0 ∧ statusCode .illegal = 1 ∧ statusCode .uninit = 2 ∧ statusCode .halted = 7 ∧
  ∀ st : Status, statusCode st ∉ [3#3, 4#3, 5#3, 6#3]

/-- R119, R126: reset clears the flags, wins over a command presented beside it, and gives no response. -/
def Obligations.ResetClearsTheFlags : Prop :=
  ∀ (s : State) (beside : Option Command) (rest : List HostEvent), s.host = .reset beside :: rest →
    ∃ t, step s = .next t ∧ t.sv = false ∧ t.kv = false ∧ t.flt = false ∧ t.cause = 0 ∧ t.host = rest ∧
      t.responses = s.responses

/-- R23, R17: the flags after reset, and the invariants of the machine hold there. -/
def Obligations.ResetStateMeetsTheInvariants : Prop :=
  State.reset.sv = false ∧ State.reset.kv = false ∧ State.reset.flt = false ∧ State.reset.cause = 0 ∧
  statusView State.reset = 0x00 ∧ State.reset.FaultFlagsConsistent ∧ State.reset.RefusalsCarryNoData

/-- R15, R16, R126: no command clears `SV`, `KV` or `FLT`, nor changes the cause of the first fault. -/
def Obligations.OnlyResetClearsFlags : Prop :=
  ∀ (s t : State) (c : Command) (rest : List HostEvent),
    s.host = .command c :: rest → step s = .next t →
      (s.sv = true → t.sv = true) ∧ (s.kv = true → t.kv = true) ∧
      (s.flt = true → t.flt = true ∧ t.cause = s.cause)

/-- R11, R12, R15, R22: which commands write `S`, `K`, `SV` and `KV`. -/
def Obligations.OnlyListedCommandsWriteRegisters : Prop :=
  ∀ (s t : State) (c : Command) (rest : List HostEvent),
    s.host = .command c :: rest → step s = .next t →
      (t.regS ≠ s.regS → c.cw ∈ [0x10#8, 0x80#8, 0x90#8, 0xA0#8, 0xB0#8, 0xC0#8]) ∧
      (t.regK ≠ s.regK → c.cw ∈ [0x20#8, 0xD0#8]) ∧
      (t.sv ≠ s.sv → c.cw = 0x10) ∧
      (t.kv ≠ s.kv → c.cw = 0x20)

/-- R16, R44, R112: CAUSE is 0 while FLT is 0 and 1 or 2 while FLT is 1; every step keeps it so. -/
def Obligations.FaultFlagsStayConsistent : Prop :=
  ∀ s t : State, s.FaultFlagsConsistent → step s = .next t → t.FaultFlagsConsistent

/-- R43: a response whose status is not OK carries no data; every step keeps it so. -/
def Obligations.RefusalsNeverCarryData : Prop :=
  ∀ s t : State, s.RefusalsCarryNoData → step s = .next t → t.RefusalsCarryNoData

/-- R15, R21, R23: what a data register holds while its valid flag is 0 cannot be read, so no run depends on it: two
states that differ only there step to two states that differ only there, with the same responses. -/
def Obligations.UnwrittenRegistersAreUnreadable : Prop :=
  ∀ s t : State, SameButUnreadable s t →
    ∃ s' t', step s = .next s' ∧ step t = .next t' ∧ SameButUnreadable s' t'

/-- R137: in a run of commands without a reset, from a state without a fault, each command gives one response, and some
response is not OK exactly when FLT is 1 at the end. -/
def Obligations.RunGoesWrongExactlyWhenFaulted : Prop :=
  ∀ (cs : List Command) (s : State), s.flt = false → s.host = presenting cs →
    ∃ (t : State) (rs : List Response), Host.Core.run Sys2Proof.core cs.length s = .next t ∧
      t.host = [] ∧ t.responses = s.responses ++ rs ∧ rs.length = cs.length ∧
      (SomeFailed rs ↔ t.flt = true)

/-- What the spec infers in R117 from R111 and R112: with both registers loaded and no fault recorded, no instruction faults, whatever the data and whatever came
before. -/
def Obligations.LoadedCoreNeverFaults : Prop :=
  ∀ (i : Instr) (s : State), s.flt = false → s.sv = true → s.kv = true →
    ∃ (t : State) (d : Block), exec i s = .next t ∧ Answers s t .ok d ∧ t.flt = false ∧ t.sv = true ∧ t.kv = true

/-! ## Mappings (20_memory.md, 40_transfer.md) -/

/-- R29: bit n of byte k of a Block is bit 120 - 8k + n of the Block. -/
def Obligations.BlockBytesAreBigEndian : Prop :=
  ∀ (b : Block) (k : Fin 16) (n : Nat), n < 8 →
    (byteOfBlock k b).getLsbD n = b.getLsbD (120 - 8 * k.val + n)

/-- R56, R57: a Block and its State, column by column, and the two round trips. -/
def Obligations.BlockStateMapping : Prop :=
  (∀ (b : Block) (r c : Fin 4), (blockToState b).cell r c = b.extractLsb' (120 - 8 * (4 * c.val + r.val)) 8) ∧
  (∀ (s : AesState) (k : Fin 16),
    (stateToBlock s).extractLsb' (120 - 8 * k.val) 8 =
      s.cell ⟨k.val % 4, by omega⟩ ⟨k.val / 4, by omega⟩) ∧
  (∀ b : Block, stateToBlock (blockToState b) = b) ∧
  (∀ s : AesState, blockToState (stateToBlock s) = s)

/-- R58: a key Block and its Words, the round trips, and Word i as column i of the same Block's State. -/
def Obligations.BlockWordsMapping : Prop :=
  (∀ (b : Block) (i j : Fin 4), ((blockToWords b).word i).byte j = b.extractLsb' (120 - 8 * (4 * i.val + j.val)) 8) ∧
  (∀ (k : RoundKey) (n : Fin 16), (wordsToBlock k).extractLsb' (120 - 8 * n.val) 8 =
    (k.word ⟨n.val / 4, by omega⟩).byte ⟨n.val % 4, by omega⟩) ∧
  (∀ b : Block, wordsToBlock (blockToWords b) = b) ∧
  (∀ k : RoundKey, blockToWords (wordsToBlock k) = k) ∧
  (∀ (b : Block) (i j : Fin 4), ((blockToWords b).word i).byte j = (blockToState b).cell j i) ∧
  blockToWords 0x000102030405060708090a0b0c0d0e0f =
    ⟨⟨0x00, 0x01, 0x02, 0x03⟩, ⟨0x04, 0x05, 0x06, 0x07⟩, ⟨0x08, 0x09, 0x0a, 0x0b⟩, ⟨0x0c, 0x0d, 0x0e, 0x0f⟩⟩

/-- What the spec infers in R13 from R11 and R12: the key seen as a State has `K[c][r]` in row r, column c; so the key and
the State of one Block agree cell by cell. -/
def Obligations.KeySeenAsState : Prop :=
  (∀ (k : RoundKey) (r c : Fin 4), (keyState k).cell r c = (k.word c).byte r) ∧
  (∀ b : Block, keyState (blockToWords b) = blockToState b)

/-! ## The transfer commands (40_transfer.md) -/

/-- R60: LDS. -/
def Obligations.LdsLoadsTheState : Prop :=
  ∀ (din : Block) (s : State),
    decode ⟨0x10, din⟩ = .ok (.lds din) ∧
    (s.flt = false → ∃ t, exec (.lds din) s = .next t ∧
      (∀ r c, t.regS.cell r c = byteOfBlock (byteIndex c r) din) ∧ t.sv = true ∧
      t.regK = s.regK ∧ t.kv = s.kv ∧ SameFaultFlags s t ∧ SameHostSide s t ∧ Answers s t .ok 0) ∧
    (s.flt = true → RefusedHalted (.lds din) s) ∧
    (blockToState 0x000102030405060708090a0b0c0d0e0f).cell 0 0 = 0x00 ∧
    (blockToState 0x000102030405060708090a0b0c0d0e0f).cell 1 0 = 0x01 ∧
    (blockToState 0x000102030405060708090a0b0c0d0e0f).cell 0 1 = 0x04 ∧
    (blockToState 0x000102030405060708090a0b0c0d0e0f).cell 3 3 = 0x0f

/-- R61: LDK. -/
def Obligations.LdkLoadsTheKey : Prop :=
  ∀ (din : Block) (s : State),
    decode ⟨0x20, din⟩ = .ok (.ldk din) ∧
    (s.flt = false → ∃ t, exec (.ldk din) s = .next t ∧
      (∀ i j, (t.regK.word i).byte j = byteOfBlock (byteIndex i j) din) ∧ t.kv = true ∧
      t.regS = s.regS ∧ t.sv = s.sv ∧ SameFaultFlags s t ∧ SameHostSide s t ∧ Answers s t .ok 0) ∧
    (s.flt = true → RefusedHalted (.ldk din) s) ∧
    (blockToWords 0x000102030405060708090a0b0c0d0e0f).word 0 = ⟨0x00, 0x01, 0x02, 0x03⟩ ∧
    (blockToWords 0x000102030405060708090a0b0c0d0e0f).word 3 = ⟨0x0c, 0x0d, 0x0e, 0x0f⟩

/-- R62: RDS. -/
def Obligations.RdsReturnsTheState : Prop :=
  ∀ (din : Block) (s : State),
    decode ⟨0x30, din⟩ = .ok .rds ∧
    (s.flt = false → s.sv = true →
      ∃ d : Block, OnlyAnswers .rds s d ∧ ∀ r c, byteOfBlock (byteIndex c r) d = s.regS.cell r c) ∧
    (s.flt = false → s.sv = false → FaultsUninit .rds s) ∧
    (s.flt = true → RefusedHalted .rds s) ∧
    stateToBlock (blockToState 0x54776f204f6e65204e696e652054776f) = 0x54776f204f6e65204e696e652054776f

/-- R63: RDK. -/
def Obligations.RdkReturnsTheKey : Prop :=
  ∀ (din : Block) (s : State),
    decode ⟨0x40, din⟩ = .ok .rdk ∧
    (s.flt = false → s.kv = true →
      ∃ d : Block, OnlyAnswers .rdk s d ∧ ∀ i j, byteOfBlock (byteIndex i j) d = (s.regK.word i).byte j) ∧
    (s.flt = false → s.kv = false → FaultsUninit .rdk s) ∧
    (s.flt = true → RefusedHalted .rdk s) ∧
    wordsToBlock (keyExpandStep (blockToWords 0x000102030405060708090a0b0c0d0e0f)) =
      0xd6aa74fdd2af72fadaa678f1d6ab76fe

/-- R17, R66: RDST answers with STATUS, bit by bit, whether or not the core is halted, and writes nothing; and the
examples of the rule. -/
def Obligations.RdstReturnsTheStatus : Prop :=
  ∀ (din : Block) (s : State),
    decode ⟨0x50, din⟩ = .ok .rdst ∧
    ∃ d : Block, OnlyAnswers .rdst s d ∧
      d.getLsbD 0 = s.sv ∧ d.getLsbD 1 = s.kv ∧ d.getLsbD 2 = s.flt ∧ d.getLsbD 3 = false ∧
      d.getLsbD 4 = s.cause.getLsbD 0 ∧ d.getLsbD 5 = s.cause.getLsbD 1 ∧ d.getLsbD 6 = s.cause.getLsbD 2 ∧
      (∀ n, 7 ≤ n → d.getLsbD n = false) ∧
      (s.sv = false → s.kv = false → s.flt = false → s.cause = 0 → d = 0x00) ∧
      (s.sv = true → s.kv = false → s.flt = false → s.cause = 0 → d = 0x01) ∧
      (s.sv = true → s.kv = true → s.flt = false → s.cause = 0 → d = 0x03) ∧
      (s.sv = false → s.kv = false → s.flt = true → s.cause = 2 → d = 0x24)

/-- What the spec infers in R67 from R56 to R63: what is loaded is what is read. -/
def Obligations.LoadThenReadReturnsTheBlock : Prop :=
  ∀ (b : Block) (s : State), s.flt = false →
    (∃ t u, exec (.lds b) s = .next t ∧ exec .rds t = .next u ∧ Answers t u .ok b) ∧
    (∃ t u, exec (.ldk b) s = .next t ∧ exec .rdk t = .next u ∧ Answers t u .ok b)

/-! ## The S-box and the multiplier (41_sbox.md, 42_gfmul.md) -/

/-- R72: the S-box is a bijection and has the three values the source gives; what the spec infers there of its own table
(R71, from general knowledge, log 4): it has no fixed point and no opposite fixed point. -/
def Obligations.SboxIsBijective : Prop :=
  (∀ x y : Byte, lookup x = lookup y → x = y) ∧ (∀ y : Byte, ∃ x, lookup x = y) ∧
  lookup 0x00 = 0x63 ∧ lookup 0x53 = 0xED ∧ lookup 0xFF = 0x16 ∧
  (∀ x : Byte, lookup x ≠ x) ∧ (∀ x : Byte, lookup x ≠ x ^^^ 0xFF)

/-- The table is the published construction of R73: the inverse in the field, with 0 for 0, then the affine map. Both the table
and the construction are from general knowledge, not from the source (logs 4 and 17). -/
def Obligations.SboxMatchesItsConstruction : Prop :=
  lookup 0 = sboxAffine 0 ∧
  ∀ x : Byte, x ≠ 0 → ∃ y : Byte, fieldMul x y = 1 ∧ lookup x = sboxAffine y

/-- R74: SBOX. -/
def Obligations.SboxAnswersTheLookup : Prop :=
  ∀ (din : Block) (x : Byte) (s : State),
    decode ⟨0x60, din⟩ = .ok (.sbox (din.extractLsb' 0 8)) ∧
    (s.flt = false → OnlyAnswers (.sbox x) s ((lookup x).setWidth 128)) ∧
    (s.flt = true → RefusedHalted (.sbox x) s) ∧
    lookup 0x00 = 0x63 ∧ lookup 0x53 = 0xed ∧ (lookup x = 0x00 ↔ x = 0x52)

/-- R76: `xtime`, as a number and bit by bit. -/
def Obligations.XtimeShiftsAndReduces : Prop :=
  ∀ a : Byte,
    (xtime a).toNat = (if 128 ≤ a.toNat then (2 * a.toNat % 256) ^^^ 0x1B else 2 * a.toNat % 256) ∧
    (xtime a).getLsbD 7 = a.getLsbD 6 ∧
    (xtime a).getLsbD 6 = a.getLsbD 5 ∧
    (xtime a).getLsbD 5 = a.getLsbD 4 ∧
    (xtime a).getLsbD 4 = (a.getLsbD 3 ^^ a.getLsbD 7) ∧
    (xtime a).getLsbD 3 = (a.getLsbD 2 ^^ a.getLsbD 7) ∧
    (xtime a).getLsbD 2 = a.getLsbD 1 ∧
    (xtime a).getLsbD 1 = (a.getLsbD 0 ^^ a.getLsbD 7) ∧
    (xtime a).getLsbD 0 = a.getLsbD 7

/-- R77 to R79: `gf_mul` by 1, 2 and 3, with the values the source gives. -/
def Obligations.GfMulByOneTwoThree : Prop :=
  (∀ a : Byte, gfMul a .one = a ∧ gfMul a .two = xtime a ∧ gfMul a .three = xtime a ^^^ a) ∧
  gfMul 0x57 .two = 0xAE ∧ gfMul 0x80 .two = 0x1B ∧ gfMul 0x57 .three = 0xF9

/-- What the spec infers in R82 from R76 to R79: each multiplication fixes zero, is linear over XOR, and is a bijection on
Bytes. -/
def Obligations.GfMulIsLinearAndBijective : Prop :=
  ∀ b : Multiplier,
    gfMul 0 b = 0 ∧
    (∀ x y : Byte, gfMul (x ^^^ y) b = gfMul x b ^^^ gfMul y b) ∧
    (∀ x y : Byte, gfMul x b = gfMul y b → x = y) ∧
    (∀ y : Byte, ∃ x, gfMul x b = y)

/-- R81: GFMUL by 1, 2 and 3, its encodings, and the words beside them that are reserved. -/
def Obligations.GfmulAnswersTheProduct : Prop :=
  ∀ (din : Block) (a : Byte) (s : State),
    decode ⟨0x71, din⟩ = .ok (.gfmul1 (din.extractLsb' 0 8)) ∧
    decode ⟨0x72, din⟩ = .ok (.gfmul2 (din.extractLsb' 0 8)) ∧
    decode ⟨0x73, din⟩ = .ok (.gfmul3 (din.extractLsb' 0 8)) ∧
    (∃ why, decode ⟨0x70, din⟩ = .error why) ∧
    (∀ n : Fin 12, ∃ why, decode ⟨0x74 + BitVec.ofNat 8 n.val, din⟩ = .error why) ∧
    (s.flt = false →
      OnlyAnswers (.gfmul1 a) s (a.setWidth 128) ∧
      OnlyAnswers (.gfmul2 a) s ((xtime a).setWidth 128) ∧
      OnlyAnswers (.gfmul3 a) s ((xtime a ^^^ a).setWidth 128)) ∧
    (s.flt = true →
      RefusedHalted (.gfmul1 a) s ∧ RefusedHalted (.gfmul2 a) s ∧ RefusedHalted (.gfmul3 a) s) ∧
    xtime 0x00 = 0x00 ∧ xtime 0x80 = 0x1b ∧ xtime 0x80 ^^^ 0x80 = (0x9b : Byte) ∧ xtime 0x7f = 0xfe ∧
    xtime 0x7f ^^^ 0x7f = (0x81 : Byte) ∧ xtime 0xff = 0xe5 ∧ xtime 0xff ^^^ 0xff = (0x1a : Byte) ∧
    xtime 0x8d = 0x01 ∧ xtime 0x57 = 0xae

/-! ## The round (43_round.md) -/

/-- R85: AddRoundKey, cell by cell; and, as the spec infers there from R56 and R57, the XOR of the two Blocks. -/
def Obligations.AddRoundKeyIsBlockXor : Prop :=
  ∀ s k : AesState,
    (∀ r c, (addRoundKey s k).cell r c = s.cell r c ^^^ k.cell r c) ∧
    stateToBlock (addRoundKey s k) = stateToBlock s ^^^ stateToBlock k

/-- R87: ShiftRows, row by row; and, as the spec infers there from R56 and R57, as a permutation of Block bytes. -/
def Obligations.ShiftRowsPermutesTheBytes : Prop :=
  ∀ s : AesState,
    (∀ r c : Fin 4, (shiftRows s).cell r c = s.cell r ⟨(c.val + r.val) % 4, by omega⟩) ∧
    (∀ k : Fin 16, byteOfBlock k (stateToBlock (shiftRows s)) =
      byteOfBlock ⟨(k.val + 4 * (k.val % 4)) % 16, by omega⟩ (stateToBlock s))

/-- R88, R89: MixColumns: each column by the fixed matrix, from its values before the stage. -/
def Obligations.MixColumnsMultipliesEachColumn : Prop :=
  ∀ (s : AesState) (c : Fin 4),
    (mixColumns s).cell 0 c = xtime (s.cell 0 c) ^^^ (xtime (s.cell 1 c) ^^^ s.cell 1 c) ^^^ s.cell 2 c ^^^ s.cell 3 c ∧
    (mixColumns s).cell 1 c = s.cell 0 c ^^^ xtime (s.cell 1 c) ^^^ (xtime (s.cell 2 c) ^^^ s.cell 2 c) ^^^ s.cell 3 c ∧
    (mixColumns s).cell 2 c = s.cell 0 c ^^^ s.cell 1 c ^^^ xtime (s.cell 2 c) ^^^ (xtime (s.cell 3 c) ^^^ s.cell 3 c) ∧
    (mixColumns s).cell 3 c = (xtime (s.cell 0 c) ^^^ s.cell 0 c) ^^^ s.cell 1 c ^^^ s.cell 2 c ^^^ xtime (s.cell 3 c)

/-- R92: AddRoundKey is its own inverse, four times ShiftRows is the identity, MixColumns is linear; and what the spec infers
there: a column of four equal Bytes is fixed, and ShiftRows commutes with SubBytes. -/
def Obligations.StageProperties : Prop :=
  (∀ s k : AesState, addRoundKey (addRoundKey s k) k = s) ∧
  (∀ s : AesState, shiftRows (shiftRows (shiftRows (shiftRows s))) = s) ∧
  (∀ u v : Word, mixColumn (wordXor u v) = wordXor (mixColumn u) (mixColumn v)) ∧
  (∀ v : Byte, mixColumn ⟨v, v, v, v⟩ = ⟨v, v, v, v⟩) ∧
  (∀ s : AesState, shiftRows (subBytes s) = subBytes (shiftRows s))

/-- R93: ARK. -/
def Obligations.ArkAddsTheRoundKey : Prop :=
  ∀ (din : Block) (s : State),
    decode ⟨0x80, din⟩ = .ok .ark ∧
    (s.flt = false → s.sv = true → s.kv = true → ∃ t, exec .ark s = .next t ∧
      (∀ r c, t.regS.cell r c = s.regS.cell r c ^^^ (s.regK.word c).byte r) ∧ WritesOnlyS s t ∧
      (s.regK = blockToWords 0 → t.regS = s.regS) ∧
      ∃ u, exec .ark t = .next u ∧ u.regS = s.regS) ∧
    (s.flt = false → (s.sv = false ∨ s.kv = false) → FaultsUninit .ark s) ∧
    (s.flt = true → RefusedHalted .ark s) ∧
    stateToBlock (addRoundKey (blockToState 0x54776f204f6e65204e696e652054776f)
      (keyState (blockToWords 0x000102030405060708090a0b0c0d0e0f))) = 0x54766d234b6b63274660646e2c597960

/-- R94: SUB. -/
def Obligations.SubSubstitutesEveryByte : Prop :=
  ∀ (din : Block) (s : State),
    decode ⟨0x90, din⟩ = .ok .sub ∧
    (s.flt = false → s.sv = true → ∃ t, exec .sub s = .next t ∧
      (∀ r c, t.regS.cell r c = lookup (s.regS.cell r c)) ∧ WritesOnlyS s t ∧
      (∀ r c, t.regS.cell r c ≠ s.regS.cell r c) ∧
      ((∀ r c, s.regS.cell r c = 0) → ∀ r c, t.regS.cell r c = 0x63)) ∧
    (s.flt = false → s.sv = false → FaultsUninit .sub s) ∧
    (s.flt = true → RefusedHalted .sub s) ∧
    stateToBlock (subBytes (blockToState 0x54766d234b6b63274660646e2c597960)) = 0x20383c26b37ffbcc5ad0439f71cbb6d0

/-- R95: SHR. -/
def Obligations.ShrRotatesTheRows : Prop :=
  ∀ (din : Block) (s : State),
    decode ⟨0xA0, din⟩ = .ok .shr ∧
    (s.flt = false → s.sv = true → ∃ t, exec .shr s = .next t ∧
      (∀ r c : Fin 4, t.regS.cell r c = s.regS.cell r ⟨(c.val + r.val) % 4, by omega⟩) ∧ WritesOnlyS s t ∧
      ((∀ c, s.regS.column c = s.regS.column 0) → t.regS = s.regS) ∧
      ∃ u v w, exec .shr t = .next u ∧ exec .shr u = .next v ∧ exec .shr v = .next w ∧ w.regS = s.regS) ∧
    (s.flt = false → s.sv = false → FaultsUninit .shr s) ∧
    (s.flt = true → RefusedHalted .shr s) ∧
    stateToBlock (shiftRows (blockToState 0x20383c26b37ffbcc5ad0439f71cbb6d0)) = 0x207f43d0b3d0b6265acb3ccc7138fb9f

/-- R96: MIX. -/
def Obligations.MixMultipliesTheColumns : Prop :=
  ∀ (din : Block) (s : State),
    decode ⟨0xB0, din⟩ = .ok .mix ∧
    (s.flt = false → s.sv = true → ∃ t, exec .mix s = .next t ∧
      (∀ c, t.regS.column c = mixColumn (s.regS.column c)) ∧ WritesOnlyS s t) ∧
    (s.flt = false → s.sv = false → FaultsUninit .mix s) ∧
    (s.flt = true → RefusedHalted .mix s) ∧
    (∀ v : Byte, mixColumn ⟨v, v, v, v⟩ = ⟨v, v, v, v⟩) ∧ mixColumn ⟨0x80, 0, 0, 0⟩ = ⟨0x1b, 0x80, 0x80, 0x9b⟩ ∧
    stateToBlock (mixColumns (blockToState 0x207f43d0b3d0b6265acb3ccc7138fb9f)) = 0x52cbb2e786ef7ee4025fa69ace881e75

/-- R98: ROUND is the four stages, as one step. -/
def Obligations.RoundRunsTheFourStages : Prop :=
  ∀ (din : Block) (s : State),
    decode ⟨0xC0, din⟩ = .ok .round ∧
    (s.flt = false → s.sv = true → s.kv = true →
      ∃ t, exec .round s = .next t ∧
        t.regS = addRoundKey (mixColumns (shiftRows (subBytes s.regS))) (keyState s.regK) ∧ WritesOnlyS s t) ∧
    (s.flt = false → (s.sv = false ∨ s.kv = false) → FaultsUninit .round s) ∧
    (s.flt = true → RefusedHalted .round s) ∧
    stateToBlock (roundFunction (blockToState 0x00102030405060708090a0b0c0d0e0f0)
      (keyState (blockToWords 0xd6aa74fdd2af72fadaa678f1d6ab76fe))) = 0x89d810e8855ace682d1843d8cb128fe4

/-- What the spec infers in R98: ROUND leaves the registers as the sequence SUB, SHR, MIX, ARK leaves them. -/
def Obligations.RoundEqualsItsFourCommands : Prop :=
  ∀ s : State, s.flt = false → s.sv = true → s.kv = true →
    ∃ t a b c d, exec .round s = .next t ∧ exec .sub s = .next a ∧ exec .shr a = .next b ∧ exec .mix b = .next c ∧
      exec .ark c = .next d ∧ SameRegisters t d ∧ SameFaultFlags t d ∧ SameHostSide t d

/-! ## The key schedule (44_keyschedule.md) -/

/-- R101 to R105: `g` from w3, and the XOR chain; with the expanded form of w7, which the spec infers in R105. -/
def Obligations.KeyStepChainsTheWords : Prop :=
  ∀ k : RoundKey,
    keyG k.w3 = ⟨lookup k.w3.b1 ^^^ 0x01, lookup k.w3.b2, lookup k.w3.b3, lookup k.w3.b0⟩ ∧
    (keyExpandStep k).w0 = wordXor k.w0 (keyG k.w3) ∧
    (keyExpandStep k).w1 = wordXor (keyExpandStep k).w0 k.w1 ∧
    (keyExpandStep k).w2 = wordXor (keyExpandStep k).w1 k.w2 ∧
    (keyExpandStep k).w3 = wordXor (keyExpandStep k).w2 k.w3 ∧
    (∀ j, ((keyExpandStep k).w3).byte j =
      k.w0.byte j ^^^ k.w1.byte j ^^^ k.w2.byte j ^^^ k.w3.byte j ^^^ (keyG k.w3).byte j)

/-- What the spec infers in R108: the key-schedule step is a bijection on round keys. -/
def Obligations.KeyStepIsBijective : Prop :=
  (∀ k l : RoundKey, keyExpandStep k = keyExpandStep l → k = l) ∧ (∀ l : RoundKey, ∃ k, keyExpandStep k = l)

/-- R108: KEXP. -/
def Obligations.KexpExpandsTheKeyInPlace : Prop :=
  ∀ (din : Block) (s : State),
    decode ⟨0xD0, din⟩ = .ok .kexp ∧
    (s.flt = false → s.kv = true → ∃ t, exec .kexp s = .next t ∧
      t.regK.w0 = wordXor s.regK.w0 (wordXor
        ⟨lookup s.regK.w3.b1, lookup s.regK.w3.b2, lookup s.regK.w3.b3, lookup s.regK.w3.b0⟩ ⟨0x01, 0, 0, 0⟩) ∧
      t.regK.w1 = wordXor t.regK.w0 s.regK.w1 ∧
      t.regK.w2 = wordXor t.regK.w1 s.regK.w2 ∧
      t.regK.w3 = wordXor t.regK.w2 s.regK.w3 ∧
      t.regS = s.regS ∧ t.sv = s.sv ∧ t.kv = s.kv ∧ SameFaultFlags s t ∧ SameHostSide s t ∧ Answers s t .ok 0) ∧
    (s.flt = false → s.kv = false → FaultsUninit .kexp s) ∧
    (s.flt = true → RefusedHalted .kexp s) ∧
    wordsToBlock (keyExpandStep (blockToWords 0)) = 0x62636363626363636263636362636363 ∧
    wordsToBlock (keyExpandStep (blockToWords 0x000102030405060708090a0b0c0d0e0f)) =
      0xd6aa74fdd2af72fadaa678f1d6ab76fe

/-- R109: a second KEXP applies the round-1 step again and does not give AES round key 2. -/
def Obligations.SecondKexpIsNotRoundKeyTwo : Prop :=
  wordsToBlock (keyExpandStep (keyExpandStep (blockToWords 0x000102030405060708090a0b0c0d0e0f))) =
    0xb592cf0b673dbdf1bd9bc5006b30b3fe ∧
  wordsToBlock (keyExpandStep (keyExpandStep (blockToWords 0x000102030405060708090a0b0c0d0e0f))) ≠
    0xb692cf0b643dbdf1be9bc5006830b3fe

/-! ## The whole computation (43_round.md R91, R99; 30_encoding.md R53) -/

/-- R53, R91: the pseudo-instruction ENC1, from any state without a fault, gives five responses `(0, 0)` and answers its RDS
with `Encrypt1(pt, k0, k1)`. -/
def Obligations.Enc1AnswersEncrypt1 : Prop :=
  ∀ (s : State) (pt k0 k1 : Block) (cs : List Command) (rest : List HostEvent),
    s.flt = false → assemble (.enc1 pt k0 k1) = .ok cs → s.host = presenting cs ++ rest →
    ∃ t : State, Host.Core.run Sys2Proof.core cs.length s = .next t ∧
      t.responses = s.responses ++ List.replicate 5 ⟨.ok, 0⟩ ++
        [⟨.ok, stateToBlock (encrypt1 pt (blockToWords k0) (blockToWords k1))⟩] ∧
      t.host = rest ∧ t.flt = false

/-- R53, R91: the pseudo-instruction ENC1K gives five responses `(0, 0)`, answers its RDS with
`Encrypt1(pt, k0, KeyExpandStep(k0))`, and its RDK with the derived round key. -/
def Obligations.Enc1kAnswersEncrypt1AndTheDerivedKey : Prop :=
  ∀ (s : State) (pt k0 : Block) (cs : List Command) (rest : List HostEvent),
    s.flt = false → assemble (.enc1k pt k0) = .ok cs → s.host = presenting cs ++ rest →
    ∃ t : State, Host.Core.run Sys2Proof.core cs.length s = .next t ∧
      t.responses = s.responses ++ List.replicate 5 ⟨.ok, 0⟩ ++
        [⟨.ok, stateToBlock (encrypt1 pt (blockToWords k0) (keyExpandStep (blockToWords k0)))⟩,
         ⟨.ok, wordsToBlock (keyExpandStep (blockToWords k0))⟩] ∧
      t.host = rest ∧ t.flt = false
end

