-- ==== Sys2Proof/Laws/Decode.lean ====
section
/-! SUPPORT. The decoder and the encoder. -/

namespace Sys2Proof

/-- A row's word decodes to that row. -/
@[simp] theorem decodeWord_word (op : Opcode) : decodeWord op.word = .ok op := by cases op <;> rfl

/-- A word that decodes to a row is that row's word (R41). -/
theorem word_of_decodeWord {cw : BitVec 8} {op : Opcode} (h : decodeWord cw = .ok op) : cw = op.word := by
  revert h
  cases op <;> revert cw <;> decide

/-- Decoding succeeds exactly on the fifteen legal words (R46, R47). -/
theorem decodeWord_isOk_iff (cw : BitVec 8) : (decodeWord cw).isOk = true ↔ cw ∈ legalWords := by
  revert cw; decide

/-- What a command decodes to is settled by its word first. -/
theorem decode_ok_iff (c : Command) (i : Instr) :
    decode c = .ok i ↔ ∃ op, decodeWord c.cw = .ok op ∧ withOperands op c.din = i := by
  unfold decode
  cases h : decodeWord c.cw <;> simp [Except.map]

/-- A command whose word is a row's word decodes to that row with the operand `din` gives it. -/
@[simp] theorem decode_word (op : Opcode) (din : Block) : decode ⟨op.word, din⟩ = .ok (withOperands op din) := by
  simp [decode, Except.map]

@[simp] theorem byteOperand_zext128 (x : Byte) : byteOperand (zext128 x) = x := by
  ext n hn
  have : n < 128 := by omega
  simp [byteOperand, zext128, BitVec.getLsbD_eq_getElem, hn, this]

end Sys2Proof
end

