-- ==== Sys2Proof/Laws/State.lean ====
section
/-! SUPPORT. What each update of the state leaves in each field: one lemma per field per update. -/

namespace Sys2Proof.Machine

@[simp] theorem respond_regS (st : Status) (d : Block) (s : State) :
    (respond st d s).regS = s.regS := rfl
@[simp] theorem respond_regK (st : Status) (d : Block) (s : State) :
    (respond st d s).regK = s.regK := rfl
@[simp] theorem respond_sv (st : Status) (d : Block) (s : State) :
    (respond st d s).sv = s.sv := rfl
@[simp] theorem respond_kv (st : Status) (d : Block) (s : State) :
    (respond st d s).kv = s.kv := rfl
@[simp] theorem respond_flt (st : Status) (d : Block) (s : State) :
    (respond st d s).flt = s.flt := rfl
@[simp] theorem respond_cause (st : Status) (d : Block) (s : State) :
    (respond st d s).cause = s.cause := rfl
@[simp] theorem respond_resets (st : Status) (d : Block) (s : State) :
    (respond st d s).resets = s.resets := rfl
@[simp] theorem respond_host (st : Status) (d : Block) (s : State) :
    (respond st d s).host = s.host := rfl
@[simp] theorem respond_responses (st : Status) (d : Block) (s : State) :
    (respond st d s).responses = s.responses ++ [⟨st, d⟩] := rfl

@[simp] theorem writeS_regS (v : AesState) (s : State) :
    (writeS v s).regS = v := rfl
@[simp] theorem writeS_regK (v : AesState) (s : State) :
    (writeS v s).regK = s.regK := rfl
@[simp] theorem writeS_sv (v : AesState) (s : State) :
    (writeS v s).sv = s.sv := rfl
@[simp] theorem writeS_kv (v : AesState) (s : State) :
    (writeS v s).kv = s.kv := rfl
@[simp] theorem writeS_flt (v : AesState) (s : State) :
    (writeS v s).flt = s.flt := rfl
@[simp] theorem writeS_cause (v : AesState) (s : State) :
    (writeS v s).cause = s.cause := rfl
@[simp] theorem writeS_resets (v : AesState) (s : State) :
    (writeS v s).resets = s.resets := rfl
@[simp] theorem writeS_host (v : AesState) (s : State) :
    (writeS v s).host = s.host := rfl
@[simp] theorem writeS_responses (v : AesState) (s : State) :
    (writeS v s).responses = s.responses := rfl

@[simp] theorem writeK_regS (v : RoundKey) (s : State) :
    (writeK v s).regS = s.regS := rfl
@[simp] theorem writeK_regK (v : RoundKey) (s : State) :
    (writeK v s).regK = v := rfl
@[simp] theorem writeK_sv (v : RoundKey) (s : State) :
    (writeK v s).sv = s.sv := rfl
@[simp] theorem writeK_kv (v : RoundKey) (s : State) :
    (writeK v s).kv = s.kv := rfl
@[simp] theorem writeK_flt (v : RoundKey) (s : State) :
    (writeK v s).flt = s.flt := rfl
@[simp] theorem writeK_cause (v : RoundKey) (s : State) :
    (writeK v s).cause = s.cause := rfl
@[simp] theorem writeK_resets (v : RoundKey) (s : State) :
    (writeK v s).resets = s.resets := rfl
@[simp] theorem writeK_host (v : RoundKey) (s : State) :
    (writeK v s).host = s.host := rfl
@[simp] theorem writeK_responses (v : RoundKey) (s : State) :
    (writeK v s).responses = s.responses := rfl

@[simp] theorem loadS_regS (v : AesState) (s : State) :
    (loadS v s).regS = v := rfl
@[simp] theorem loadS_regK (v : AesState) (s : State) :
    (loadS v s).regK = s.regK := rfl
@[simp] theorem loadS_sv (v : AesState) (s : State) :
    (loadS v s).sv = true := rfl
@[simp] theorem loadS_kv (v : AesState) (s : State) :
    (loadS v s).kv = s.kv := rfl
@[simp] theorem loadS_flt (v : AesState) (s : State) :
    (loadS v s).flt = s.flt := rfl
@[simp] theorem loadS_cause (v : AesState) (s : State) :
    (loadS v s).cause = s.cause := rfl
@[simp] theorem loadS_resets (v : AesState) (s : State) :
    (loadS v s).resets = s.resets := rfl
@[simp] theorem loadS_host (v : AesState) (s : State) :
    (loadS v s).host = s.host := rfl
@[simp] theorem loadS_responses (v : AesState) (s : State) :
    (loadS v s).responses = s.responses := rfl

@[simp] theorem loadK_regS (v : RoundKey) (s : State) :
    (loadK v s).regS = s.regS := rfl
@[simp] theorem loadK_regK (v : RoundKey) (s : State) :
    (loadK v s).regK = v := rfl
@[simp] theorem loadK_sv (v : RoundKey) (s : State) :
    (loadK v s).sv = s.sv := rfl
@[simp] theorem loadK_kv (v : RoundKey) (s : State) :
    (loadK v s).kv = true := rfl
@[simp] theorem loadK_flt (v : RoundKey) (s : State) :
    (loadK v s).flt = s.flt := rfl
@[simp] theorem loadK_cause (v : RoundKey) (s : State) :
    (loadK v s).cause = s.cause := rfl
@[simp] theorem loadK_resets (v : RoundKey) (s : State) :
    (loadK v s).resets = s.resets := rfl
@[simp] theorem loadK_host (v : RoundKey) (s : State) :
    (loadK v s).host = s.host := rfl
@[simp] theorem loadK_responses (v : RoundKey) (s : State) :
    (loadK v s).responses = s.responses := rfl

@[simp] theorem recordFault_regS (c : Cause) (s : State) :
    (recordFault c s).regS = s.regS := rfl
@[simp] theorem recordFault_regK (c : Cause) (s : State) :
    (recordFault c s).regK = s.regK := rfl
@[simp] theorem recordFault_sv (c : Cause) (s : State) :
    (recordFault c s).sv = s.sv := rfl
@[simp] theorem recordFault_kv (c : Cause) (s : State) :
    (recordFault c s).kv = s.kv := rfl
@[simp] theorem recordFault_flt (c : Cause) (s : State) :
    (recordFault c s).flt = true := rfl
@[simp] theorem recordFault_cause (c : Cause) (s : State) :
    (recordFault c s).cause = if s.flt then s.cause else causeCode c := rfl
@[simp] theorem recordFault_resets (c : Cause) (s : State) :
    (recordFault c s).resets = s.resets := rfl
@[simp] theorem recordFault_host (c : Cause) (s : State) :
    (recordFault c s).host = s.host := rfl
@[simp] theorem recordFault_responses (c : Cause) (s : State) :
    (recordFault c s).responses = s.responses := rfl

@[simp] theorem raiseFault_regS (c : Cause) (s : State) :
    (raiseFault c s).regS = s.regS := rfl
@[simp] theorem raiseFault_regK (c : Cause) (s : State) :
    (raiseFault c s).regK = s.regK := rfl
@[simp] theorem raiseFault_sv (c : Cause) (s : State) :
    (raiseFault c s).sv = s.sv := rfl
@[simp] theorem raiseFault_kv (c : Cause) (s : State) :
    (raiseFault c s).kv = s.kv := rfl
@[simp] theorem raiseFault_flt (c : Cause) (s : State) :
    (raiseFault c s).flt = true := rfl
@[simp] theorem raiseFault_cause (c : Cause) (s : State) :
    (raiseFault c s).cause = if s.flt then s.cause else causeCode c := rfl
@[simp] theorem raiseFault_resets (c : Cause) (s : State) :
    (raiseFault c s).resets = s.resets := rfl
@[simp] theorem raiseFault_host (c : Cause) (s : State) :
    (raiseFault c s).host = s.host := rfl
@[simp] theorem raiseFault_responses (c : Cause) (s : State) :
    (raiseFault c s).responses = s.responses ++ [⟨causeStatus c, 0⟩] := rfl

@[simp] theorem refuseHalted_regS (s : State) :
    (refuseHalted s).regS = s.regS := rfl
@[simp] theorem refuseHalted_regK (s : State) :
    (refuseHalted s).regK = s.regK := rfl
@[simp] theorem refuseHalted_sv (s : State) :
    (refuseHalted s).sv = s.sv := rfl
@[simp] theorem refuseHalted_kv (s : State) :
    (refuseHalted s).kv = s.kv := rfl
@[simp] theorem refuseHalted_flt (s : State) :
    (refuseHalted s).flt = s.flt := rfl
@[simp] theorem refuseHalted_cause (s : State) :
    (refuseHalted s).cause = s.cause := rfl
@[simp] theorem refuseHalted_resets (s : State) :
    (refuseHalted s).resets = s.resets := rfl
@[simp] theorem refuseHalted_host (s : State) :
    (refuseHalted s).host = s.host := rfl
@[simp] theorem refuseHalted_responses (s : State) :
    (refuseHalted s).responses = s.responses ++ [⟨.halted, 0⟩] := rfl

@[simp] theorem resetCore_regS (s : State) :
    (resetCore s).regS = Config.unspecifiedS (s.resets + 1) := rfl
@[simp] theorem resetCore_regK (s : State) :
    (resetCore s).regK = Config.unspecifiedK (s.resets + 1) := rfl
@[simp] theorem resetCore_sv (s : State) :
    (resetCore s).sv = false := rfl
@[simp] theorem resetCore_kv (s : State) :
    (resetCore s).kv = false := rfl
@[simp] theorem resetCore_flt (s : State) :
    (resetCore s).flt = false := rfl
@[simp] theorem resetCore_cause (s : State) :
    (resetCore s).cause = 0 := rfl
@[simp] theorem resetCore_resets (s : State) :
    (resetCore s).resets = s.resets + 1 := rfl
@[simp] theorem resetCore_host (s : State) :
    (resetCore s).host = s.host := rfl
@[simp] theorem resetCore_responses (s : State) :
    (resetCore s).responses = s.responses := rfl

@[simp] theorem presentCommand_regS (c : Command) (s : State) :
    (presentCommand c s).regS = s.regS := rfl
@[simp] theorem presentCommand_regK (c : Command) (s : State) :
    (presentCommand c s).regK = s.regK := rfl
@[simp] theorem presentCommand_sv (c : Command) (s : State) :
    (presentCommand c s).sv = s.sv := rfl
@[simp] theorem presentCommand_kv (c : Command) (s : State) :
    (presentCommand c s).kv = s.kv := rfl
@[simp] theorem presentCommand_flt (c : Command) (s : State) :
    (presentCommand c s).flt = s.flt := rfl
@[simp] theorem presentCommand_cause (c : Command) (s : State) :
    (presentCommand c s).cause = s.cause := rfl
@[simp] theorem presentCommand_resets (c : Command) (s : State) :
    (presentCommand c s).resets = s.resets := rfl
@[simp] theorem presentCommand_host (c : Command) (s : State) :
    (presentCommand c s).host = .command c :: s.host := rfl
@[simp] theorem presentCommand_responses (c : Command) (s : State) :
    (presentCommand c s).responses = s.responses := rfl

end Sys2Proof.Machine
end

