-- ==== Sys2Proof/Laws/Ops.lean ====
section
/-! SUPPORT. What each shared operation can do, said once. -/

namespace Sys2Proof.Machine

/-- A command answers in one of three ways: refused while halted, `E_UNINIT`, or its own rule (R48). -/
theorem runCommand_cases {rd : Reads} {effect : State → State} {s t : State}
    (h : runCommand rd effect s = .next t) :
    (s.flt = true ∧ t = refuseHalted s) ∨
    (s.flt = false ∧ missing rd s = true ∧ t = raiseFault .uninit s) ∨
    (s.flt = false ∧ missing rd s = false ∧ t = effect s) := by
  unfold runCommand at h
  cases hf : s.flt <;> cases hm : missing rd s <;> simp_all

/-- A command always answers (R136: every command terminates). -/
theorem runCommand_next (rd : Reads) (effect : State → State) (s : State) :
    ∃ t, runCommand rd effect s = .next t := by
  unfold runCommand
  split
  · exact ⟨_, rfl⟩
  · split <;> exact ⟨_, rfl⟩

@[simp] theorem runCommand_halted {rd : Reads} {effect : State → State} {s : State} (h : s.flt = true) :
    runCommand rd effect s = .next (refuseHalted s) := by simp [runCommand, h]

theorem runCommand_missing {rd : Reads} {effect : State → State} {s : State} (h : s.flt = false)
    (m : missing rd s = true) : runCommand rd effect s = .next (raiseFault .uninit s) := by
  simp [runCommand, h, m]

theorem runCommand_ready {rd : Reads} {effect : State → State} {s : State} (h : s.flt = false)
    (m : missing rd s = false) : runCommand rd effect s = .next (effect s) := by
  simp [runCommand, h, m]

@[simp] theorem missing_none (s : State) : missing readsNone s = false := rfl

@[simp] theorem missing_onlyS (s : State) : missing readsOnlyS s = !s.sv := by simp [missing, readsOnlyS]

@[simp] theorem missing_onlyK (s : State) : missing readsOnlyK s = !s.kv := by simp [missing, readsOnlyK]

@[simp] theorem missing_both (s : State) : missing readsBoth s = (!s.sv || !s.kv) := by simp [missing, readsBoth]

/-- A reserved word is refused while halted and faults otherwise (R49, R113). -/
theorem reservedWord_cases (s : State) :
    (s.flt = true ∧ reservedWord s = refuseHalted s) ∨
    (s.flt = false ∧ reservedWord s = raiseFault .illegal s) := by
  unfold reservedWord
  cases s.flt <;> simp

/-- Every step answers a next state, in one of four ways (R48, R119). -/
theorem step_cases (s : State) :
    (s.host = [] ∧ step s = .next s) ∨
    (∃ b rest, s.host = .reset b :: rest ∧ step s = .next (resetCore { s with host := rest })) ∨
    (∃ c rest i, s.host = .command c :: rest ∧ decode c = .ok i ∧ step s = exec i { s with host := rest }) ∨
    (∃ c rest why, s.host = .command c :: rest ∧ decode c = .error why ∧
      step s = .next (reservedWord { s with host := rest })) := by
  rcases h : s.host with _ | ⟨_ | _, rest⟩
  · exact .inl ⟨rfl, by simp [step, nextEvent, h, idle]⟩
  · rename_i c
    cases d : decode c with
    | ok i => exact .inr (.inr (.inl ⟨c, rest, i, rfl, d, by simp [step, nextEvent, h, d]⟩))
    | error why => exact .inr (.inr (.inr ⟨c, rest, why, rfl, d, by simp [step, nextEvent, h, d]⟩))
  · rename_i b
    exact .inr (.inl ⟨b, rest, rfl, by simp [step, nextEvent, h]⟩)

/-- The word placed by `withFetchWord` is the next event, so the next step runs it. -/
theorem step_withFetchWord (s : State) (nbits w : Nat) (i : Instr) (h : decodeTableWord nbits w = some i) :
    step (s.withFetchWord nbits w) = exec i s := by
  unfold decodeTableWord at h
  cases d : decode (commandOfTableWord nbits w) with
  | ok j =>
    simp only [d, Except.toOption, Option.some.injEq] at h
    subst h
    simp [step, State.withFetchWord, presentCommand, nextEvent, d]
  | error why => simp [d, Except.toOption] at h

end Sys2Proof.Machine
end

