-- ==== Sys2Proof/Laws/Exec.lean ====
section
/-! SUPPORT. Every instruction but RDST is one use of `runCommand`: the registers it reads and its own effect (R22, R59). -/

namespace Sys2Proof.Machine

/-- The registers an instruction reads (R22). -/
def readsOf : Instr → Reads
  | .rds => readsOnlyS
  | .sub => readsOnlyS
  | .shr => readsOnlyS
  | .mix => readsOnlyS
  | .rdk => readsOnlyK
  | .kexp => readsOnlyK
  | .ark => readsBoth
  | .round => readsBoth
  | .lds _ => readsNone
  | .ldk _ => readsNone
  | .rdst => readsNone
  | .sbox _ => readsNone
  | .gfmul1 _ => readsNone
  | .gfmul2 _ => readsNone
  | .gfmul3 _ => readsNone

/-- An instruction's own effect, step 4 of R48. -/
def effectOf : Instr → State → State
  | .lds din => fun s => respond .ok 0 (loadS (blockToState din) s)
  | .ldk din => fun s => respond .ok 0 (loadK (blockToWords din) s)
  | .rds => fun s => respond .ok (stateToBlock s.regS) s
  | .rdk => fun s => respond .ok (wordsToBlock s.regK) s
  | .rdst => fun s => respond .ok (zext128 (statusView s)) s
  | .sbox x => respond .ok (zext128 (lookup x))
  | .gfmul1 a => respond .ok (zext128 (gfMul a .one))
  | .gfmul2 a => respond .ok (zext128 (gfMul a .two))
  | .gfmul3 a => respond .ok (zext128 (gfMul a .three))
  | .ark => fun s => respond .ok 0 (writeS (addRoundKey s.regS (keyState s.regK)) s)
  | .sub => fun s => respond .ok 0 (writeS (subBytes s.regS) s)
  | .shr => fun s => respond .ok 0 (writeS (shiftRows s.regS) s)
  | .mix => fun s => respond .ok 0 (writeS (mixColumns s.regS) s)
  | .round => fun s => respond .ok 0 (writeS (roundFunction s.regS (keyState s.regK)) s)
  | .kexp => fun s => respond .ok 0 (writeK (keyExpandStep s.regK) s)

/-- RDST runs whether or not the core is halted (R66, R115). -/
theorem exec_rdst (s : State) : exec .rdst s = .next (effectOf .rdst s) := rfl

/-- Every other instruction goes through the checks of R48. -/
theorem exec_of_ne_rdst (i : Instr) (s : State) (h : i ≠ .rdst) :
    exec i s = runCommand (readsOf i) (effectOf i) s := by
  cases i <;> first | rfl | exact absurd rfl h

/-- Everything an instruction can do: refused while halted, `E_UNINIT`, or its own effect. -/
theorem exec_cases (i : Instr) (s : State) :
    (s.flt = true ∧ i ≠ .rdst ∧ exec i s = .next (refuseHalted s)) ∨
    (s.flt = false ∧ missing (readsOf i) s = true ∧ exec i s = .next (raiseFault .uninit s)) ∨
    ((i = .rdst ∨ s.flt = false ∧ missing (readsOf i) s = false) ∧ exec i s = .next (effectOf i s)) := by
  by_cases h : i = .rdst
  · subst h; exact .inr (.inr ⟨.inl rfl, exec_rdst s⟩)
  · rw [exec_of_ne_rdst i s h]
    cases hf : s.flt
    · cases hm : missing (readsOf i) s
      · exact .inr (.inr ⟨.inr ⟨rfl, rfl⟩, runCommand_ready hf hm⟩)
      · exact .inr (.inl ⟨rfl, rfl, runCommand_missing hf hm⟩)
    · exact .inl ⟨rfl, h, runCommand_halted hf⟩

end Sys2Proof.Machine
end

