-- ==== Sys2Proof/Laws/Operands.lean ====
section
/-! SUPPORT. Index notation and byte positions: reading what a builder built, and equality by cells. -/

namespace Sys2Proof

@[simp] theorem Word.byte_ofFn (f : Fin 4 → Byte) (j : Fin 4) : (Word.ofFn f).byte j = f j := by
  fin_cases j <;> rfl

theorem Word.ext_byte {u v : Word} (h : ∀ j, u.byte j = v.byte j) : u = v :=
  Word.ext (h 0) (h 1) (h 2) (h 3)

@[simp] theorem AesState.cell_ofFn (f : Fin 4 → Fin 4 → Byte) (r c : Fin 4) :
    (AesState.ofFn f).cell r c = f r c := by
  fin_cases c <;> exact Word.byte_ofFn (fun r => f r _) r

theorem AesState.ext_cell {s t : AesState} (h : ∀ r c, s.cell r c = t.cell r c) : s = t :=
  AesState.ext (Word.ext_byte fun r => h r 0) (Word.ext_byte fun r => h r 1) (Word.ext_byte fun r => h r 2)
    (Word.ext_byte fun r => h r 3)

@[simp] theorem RoundKey.byte_word_ofFn (f : Fin 4 → Fin 4 → Byte) (i j : Fin 4) :
    ((RoundKey.ofFn f).word i).byte j = f i j := by
  fin_cases i <;> exact Word.byte_ofFn _ j

theorem RoundKey.ext_byte {k l : RoundKey} (h : ∀ i j, (k.word i).byte j = (l.word i).byte j) : k = l :=
  RoundKey.ext (Word.ext_byte (h 0)) (Word.ext_byte (h 1)) (Word.ext_byte (h 2)) (Word.ext_byte (h 3))

/-- The sixteen places of a Block are the pairs of a group and a place in it. -/
@[simp] theorem byteIndex_group_place (k : Fin 16) : byteIndex (groupOf k) (placeOf k) = k := by
  ext; simp only [byteIndex, groupOf, placeOf]; omega

@[simp] theorem groupOf_byteIndex (i j : Fin 4) : groupOf (byteIndex i j) = i := by
  ext; simp only [byteIndex, groupOf]; omega

@[simp] theorem placeOf_byteIndex (i j : Fin 4) : placeOf (byteIndex i j) = j := by
  ext; simp only [byteIndex, placeOf]; omega

/-- The bits of byte k of a Block (R29). -/
theorem getLsbD_byteOfBlock (k : Fin 16) (b : Block) (n : Nat) :
    (byteOfBlock k b).getLsbD n = (decide (n < 8) && b.getLsbD (120 - 8 * k.val + n)) := by
  simp [byteOfBlock]

/-- The eight bits above `w` of a Byte put before `w` bits are that Byte. -/
theorem byte_at_top {w : Nat} (x : Byte) (y : BitVec w) : (x ++ y).extractLsb' w 8 = x := by
  ext n hn
  simp [BitVec.getLsbD_append, BitVec.getLsbD_eq_getElem, hn]

/-- Eight bits that lie below `w` are not touched by a Byte put before `w` bits. -/
theorem byte_below_top {w n : Nat} (x : Byte) (y : BitVec w) (h : n + 8 ≤ w) :
    (x ++ y).extractLsb' n 8 = y.extractLsb' n 8 := by
  ext m hm
  have p : n + m < w := by omega
  simp [BitVec.getLsbD_append, p]

/-- Byte k of the Block built from sixteen Bytes is the k-th of them (R29). -/
@[simp] theorem byteOfBlock_blockOfBytes (f : Fin 16 → Byte) (k : Fin 16) :
    byteOfBlock k (blockOfBytes f) = f k := by
  unfold byteOfBlock blockOfBytes
  fin_cases k
  all_goals
    repeat rw [byte_below_top _ _ (by decide)]
    first
      | exact byte_at_top _ _
      | exact BitVec.extractLsb'_eq_self

/-- Two Blocks with equal bytes are equal (R29). -/
theorem block_ext_byte {a b : Block} (h : ∀ k, byteOfBlock k a = byteOfBlock k b) : a = b := by
  apply BitVec.eq_of_getLsbD_eq
  intro n hn
  have e := congrArg (fun x => x.getLsbD (n % 8)) (h ⟨15 - n / 8, by omega⟩)
  simp only [getLsbD_byteOfBlock] at e
  have p : 120 - 8 * (15 - n / 8) + n % 8 = n := by omega
  have q : n % 8 < 8 := by omega
  simpa [p, q] using e

end Sys2Proof
end

