-- ==== Sys2Proof/Laws/Functions.lean ====
section
/-! SUPPORT. Each mapping and each stage, cell by cell. -/

namespace Sys2Proof

@[simp] theorem blockToState_cell (b : Block) (r c : Fin 4) :
    (blockToState b).cell r c = byteOfBlock (byteIndex c r) b := AesState.cell_ofFn _ r c

@[simp] theorem byteOfBlock_stateToBlock (s : AesState) (k : Fin 16) :
    byteOfBlock k (stateToBlock s) = s.cell (placeOf k) (groupOf k) := byteOfBlock_blockOfBytes _ k

@[simp] theorem blockToWords_byte (b : Block) (i j : Fin 4) :
    ((blockToWords b).word i).byte j = byteOfBlock (byteIndex i j) b := RoundKey.byte_word_ofFn _ i j

@[simp] theorem byteOfBlock_wordsToBlock (k : RoundKey) (n : Fin 16) :
    byteOfBlock n (wordsToBlock k) = (k.word (groupOf n)).byte (placeOf n) := byteOfBlock_blockOfBytes _ n

@[simp] theorem keyState_cell (k : RoundKey) (r c : Fin 4) : (keyState k).cell r c = (k.word c).byte r :=
  AesState.cell_ofFn _ r c

@[simp] theorem addRoundKey_cell (s k : AesState) (r c : Fin 4) :
    (addRoundKey s k).cell r c = s.cell r c ^^^ k.cell r c := AesState.cell_ofFn _ r c

@[simp] theorem subBytes_cell (s : AesState) (r c : Fin 4) : (subBytes s).cell r c = lookup (s.cell r c) :=
  AesState.cell_ofFn _ r c

@[simp] theorem shiftRows_cell (s : AesState) (r c : Fin 4) : (shiftRows s).cell r c = s.cell r (c + r) :=
  AesState.cell_ofFn _ r c

@[simp] theorem mixColumns_column (s : AesState) (c : Fin 4) : (mixColumns s).column c = mixColumn (s.column c) := by
  fin_cases c <;> rfl

@[simp] theorem gfMul_one (a : Byte) : gfMul a .one = a := rfl

@[simp] theorem gfMul_two (a : Byte) : gfMul a .two = xtime a := rfl

@[simp] theorem gfMul_three (a : Byte) : gfMul a .three = xtime a ^^^ a := rfl

/-- `xtime` respects the field's addition, which is XOR (R82). -/
theorem xtime_xor (a b : Byte) : xtime (a ^^^ b) = xtime a ^^^ xtime b := by
  have shift : (a ^^^ b) <<< 1 = a <<< 1 ^^^ b <<< 1 := BitVec.shiftLeft_xor_distrib a b 1
  unfold xtime
  rw [BitVec.msb_xor, shift]
  have twice (x y r : Byte) : x ^^^ y = x ^^^ r ^^^ (y ^^^ r) := by
    rw [BitVec.xor_comm y r, ← BitVec.xor_assoc, BitVec.xor_assoc x r r, BitVec.xor_self, BitVec.xor_zero]
  cases a.msb <;> cases b.msb <;> simp <;> first | exact twice _ _ _ | ac_rfl

@[simp] theorem wordXor_byte (u v : Word) (j : Fin 4) : (wordXor u v).byte j = u.byte j ^^^ v.byte j := by
  fin_cases j <;> rfl

@[simp] theorem rotWord_byte (w : Word) (j : Fin 4) : (rotWord w).byte j = w.byte (j + 1) := by
  fin_cases j <;> rfl

@[simp] theorem subWord_byte (w : Word) (j : Fin 4) : (subWord w).byte j = lookup (w.byte j) := by
  fin_cases j <;> rfl

end Sys2Proof
end

