-- ==== Sys2Proof/Laws/PerInstr.lean ====
section
/-! SUPPORT. Laws stated instruction by instruction: the command each instruction is encoded as is one the canonical assembler
emits, a legal word with zero in every ignored bit (spec 30_encoding.md R46, R52). -/

namespace Sys2Proof.Laws.EncodesCanonically

/-- The encoding of `i` is well-formed. -/
def Statement (i : Instr) : Prop := (encode i).wellFormed = true

/-- A zero-extended Byte has nothing above its eight bits. -/
theorem zext128_shift (x : Byte) : zext128 x >>> 8 = 0 := by
  ext n hn
  simp [zext128]

theorem lds (din : Block) : Statement (.lds din) := by
  have : din >>> 128 = 0 := BitVec.ushiftRight_eq_zero (Nat.le_refl 128)
  simp [Statement, Command.wellFormed, Command.legalWord, Command.ignoredZero, encode, Instr.opcode,
    Instr.dataOperand, Opcode.word, legalWords, usedBits, this]

theorem ldk (din : Block) : Statement (.ldk din) := by
  have : din >>> 128 = 0 := BitVec.ushiftRight_eq_zero (Nat.le_refl 128)
  simp [Statement, Command.wellFormed, Command.legalWord, Command.ignoredZero, encode, Instr.opcode,
    Instr.dataOperand, Opcode.word, legalWords, usedBits, this]

theorem rds : Statement .rds := by unfold Statement; decide

theorem rdk : Statement .rdk := by unfold Statement; decide

theorem rdst : Statement .rdst := by unfold Statement; decide

theorem sbox (x : Byte) : Statement (.sbox x) := by
  simp [Statement, Command.wellFormed, Command.legalWord, Command.ignoredZero, encode, Instr.opcode,
    Instr.dataOperand, Opcode.word, legalWords, usedBits, zext128_shift]

theorem gfmul1 (a : Byte) : Statement (.gfmul1 a) := by
  simp [Statement, Command.wellFormed, Command.legalWord, Command.ignoredZero, encode, Instr.opcode,
    Instr.dataOperand, Opcode.word, legalWords, usedBits, zext128_shift]

theorem gfmul2 (a : Byte) : Statement (.gfmul2 a) := by
  simp [Statement, Command.wellFormed, Command.legalWord, Command.ignoredZero, encode, Instr.opcode,
    Instr.dataOperand, Opcode.word, legalWords, usedBits, zext128_shift]

theorem gfmul3 (a : Byte) : Statement (.gfmul3 a) := by
  simp [Statement, Command.wellFormed, Command.legalWord, Command.ignoredZero, encode, Instr.opcode,
    Instr.dataOperand, Opcode.word, legalWords, usedBits, zext128_shift]

theorem ark : Statement .ark := by unfold Statement; decide

theorem sub : Statement .sub := by unfold Statement; decide

theorem shr : Statement .shr := by unfold Statement; decide

theorem mix : Statement .mix := by unfold Statement; decide

theorem round : Statement .round := by unfold Statement; decide

theorem kexp : Statement .kexp := by unfold Statement; decide

end Sys2Proof.Laws.EncodesCanonically
end

