-- ==== Sys2Proof/Tests/Slice0.lean ====
section
/-! SUPPORT. Small tests: encodings written out bit by bit, ill-formed terms refused, one or two steps for each command, and a
witness for the hypotheses of every statement. Expected results are the spec's own (95_test_vectors.md, named V or P). -/

namespace Sys2Proof.Tests

open Sys2Proof Sys2Proof.Machine

/-! ## Decoding: words written bit by bit from R46, and reserved words by the class of R49 -/

theorem test_decode_lds : decode ⟨0b00010000#8, 0xab⟩ = .ok (.lds 0xab) := by decide
theorem test_decode_ldk : decode ⟨0b00100000#8, 0xab⟩ = .ok (.ldk 0xab) := by decide
theorem test_decode_rds : decode ⟨0b00110000#8, 0xab⟩ = .ok .rds := by decide
theorem test_decode_rdk : decode ⟨0b01000000#8, 0xab⟩ = .ok .rdk := by decide
theorem test_decode_rdst : decode ⟨0b01010000#8, 0xab⟩ = .ok .rdst := by decide
/-- V14a: the bits of `din` above bit 7 are ignored. -/
theorem test_decode_sbox : decode ⟨0b01100000#8, 0xffffffffffffffffffffffffffffff53⟩ = .ok (.sbox 0x53) := by decide
theorem test_decode_gfmul1 : decode ⟨0b01110001#8, 0x1ab⟩ = .ok (.gfmul1 0xab) := by decide
theorem test_decode_gfmul2 : decode ⟨0b01110010#8, 0x57⟩ = .ok (.gfmul2 0x57) := by decide
theorem test_decode_gfmul3 : decode ⟨0b01110011#8, 0x80⟩ = .ok (.gfmul3 0x80) := by decide
theorem test_decode_ark : decode ⟨0b10000000#8, 0⟩ = .ok .ark := by decide
theorem test_decode_sub : decode ⟨0b10010000#8, 0⟩ = .ok .sub := by decide
theorem test_decode_shr : decode ⟨0b10100000#8, 0⟩ = .ok .shr := by decide
theorem test_decode_mix : decode ⟨0b10110000#8, 0⟩ = .ok .mix := by decide
theorem test_decode_round : decode ⟨0b11000000#8, 0⟩ = .ok .round := by decide
theorem test_decode_kexp : decode ⟨0b11010000#8, 0⟩ = .ok .kexp := by decide
/-- V55: the all-zero and the all-ones word, and 0xE0. -/
theorem test_reserved_opcode :
    decode ⟨0x00, 0⟩ = .error .opcode ∧ decode ⟨0xff, 0⟩ = .error .opcode ∧ decode ⟨0xe0, 0⟩ = .error .opcode := by
  decide
/-- V55: 0x64 and 0x74. -/
theorem test_reserved_zField : decode ⟨0x64, 0⟩ = .error .zField ∧ decode ⟨0x74, 0⟩ = .error .zField := by decide
/-- V55: 0x11. -/
theorem test_reserved_bField : decode ⟨0x11, 0⟩ = .error .bField := by decide
/-- V54: GFMUL with multiplier 0. -/
theorem test_reserved_multiplierZero : decode ⟨0x70, 0x80⟩ = .error .multiplierZero := by decide
/-- The opcode table's row of SBOX, eight bits, and the same word with a Byte in the bits after it. -/
theorem test_decodeTableWord :
    decodeTableWord 8 0x60 = some (.sbox 0) ∧ decodeTableWord 136 0x5360 = some (.sbox 0x53) ∧
      decodeTableWord 8 0x5360 = some (.sbox 0) ∧ decodeTableWord 8 0x70 = none := by decide

/-! ## Ill-formed terms are refused, one for each check -/

theorem test_illFormed_word : Command.wellFormed ⟨0x70, 0⟩ = false := by decide
theorem test_illFormed_ignoredBits : Command.wellFormed ⟨0x30, 1⟩ = false := by decide
theorem test_illFormed_aboveByte : Command.wellFormed ⟨0x60, 0x100⟩ = false := by decide
theorem test_illFormed_multiplier :
    AsmLine.wellFormed (.gfmul 0 0x57) = false ∧ AsmLine.wellFormed (.gfmul 4 0x57) = false := by decide
/-- The nearest well-formed terms. -/
theorem test_wellFormed :
    Command.wellFormed ⟨0x71, 0xff⟩ = true ∧ Command.wellFormed ⟨0x10, 0xffffffffffffffffffffffffffffffff⟩ = true ∧
      Command.wellFormed ⟨0x30, 0⟩ = true ∧ AsmLine.wellFormed (.gfmul 3 0x57) = true := by decide

/-! ## Single commands -/

/-- A core with `S` and `K` loaded with the inputs of V40. -/
def loaded : State where
  regS := blockToState 0x54776f204f6e65204e696e652054776f
  regK := blockToWords 0x000102030405060708090a0b0c0d0e0f
  sv := true
  kv := true
  flt := false
  cause := 0
  resets := 0
  host := []
  responses := []

/-- The same core halted by an `E_UNINIT`. -/
def halted : State := { loaded with flt := true, cause := 2 }

/-- The next state of an outcome that has one. -/
def nextOf (o : Host.Outcome State Fault Refusal) : Option State :=
  match o with
  | .next t => some t
  | .fault _ => none
  | .refused _ => none

/-- The Block in `S` after an instruction. -/
def blockAfter (i : Instr) (s : State) : Option Block := (nextOf (exec i s)).map fun t => stateToBlock t.regS

/-- The responses after an instruction. -/
def answersAfter (i : Instr) (s : State) : Option (List Response) := (nextOf (exec i s)).map fun t => t.responses

/-- The core with another Block in `S`. -/
def withBlock (b : Block) : State := { loaded with regS := blockToState b }

/-- V1: `S[1][0] = 77`, `S[0][1] = 4f`. -/
theorem test_lds :
    (nextOf (exec (.lds 0x54776f204f6e65204e696e652054776f) { halted with flt := false, sv := false })).map
      (fun t => (t.regS.cell 1 0, t.regS.cell 0 1, t.sv)) = some (0x77, 0x4f, true) := by decide
/-- V2: `K[3] = 0c0d0e0f`, `K[3][0] = 0c`. -/
theorem test_ldk :
    (nextOf (exec (.ldk 0x000102030405060708090a0b0c0d0e0f) { loaded with kv := false })).map
      (fun t => (t.regK.w3, (t.regK.word 3).byte 0, t.kv)) = some (⟨0x0c, 0x0d, 0x0e, 0x0f⟩, 0x0c, true) := by decide
/-- V1, and V50: RDS of an unwritten register. -/
theorem test_rds : answersAfter .rds loaded = some [⟨.ok, 0x54776f204f6e65204e696e652054776f⟩] := by decide
theorem test_rds_uninit : answersAfter .rds { loaded with sv := false } = some [⟨.uninit, 0⟩] := by decide
/-- V2. -/
theorem test_rdk : answersAfter .rdk loaded = some [⟨.ok, 0x000102030405060708090a0b0c0d0e0f⟩] := by decide
/-- V6, and P4 step 6: STATUS 0x25 while halted. -/
theorem test_rdst : answersAfter .rdst loaded = some [⟨.ok, 0x03⟩] := by decide
theorem test_rdst_halted : answersAfter .rdst { halted with kv := false } = some [⟨.ok, 0x25⟩] := by decide
/-- V11, V13. -/
theorem test_sbox : answersAfter (.sbox 0x53) loaded = some [⟨.ok, 0xed⟩] := by decide
theorem test_sbox_zero : answersAfter (.sbox 0x52) State.reset = some [⟨.ok, 0x00⟩] := by decide
/-- V16, V17, V18. -/
theorem test_gfmul1 : answersAfter (.gfmul1 0x80) loaded = some [⟨.ok, 0x80⟩] := by decide
theorem test_gfmul2 : answersAfter (.gfmul2 0x80) loaded = some [⟨.ok, 0x1b⟩] := by decide
theorem test_gfmul3 : answersAfter (.gfmul3 0x57) loaded = some [⟨.ok, 0xf9⟩] := by decide
theorem test_gfmul3_noReduction : answersAfter (.gfmul3 0x7f) loaded = some [⟨.ok, 0x81⟩] := by decide
/-- V40, column by column. -/
theorem test_ark : blockAfter .ark loaded = some 0x54766d234b6b63274660646e2c597960 := by decide
theorem test_sub :
    blockAfter .sub (withBlock 0x54766d234b6b63274660646e2c597960) = some 0x20383c26b37ffbcc5ad0439f71cbb6d0 := by decide
theorem test_shr :
    blockAfter .shr (withBlock 0x20383c26b37ffbcc5ad0439f71cbb6d0) = some 0x207f43d0b3d0b6265acb3ccc7138fb9f := by decide
theorem test_mix :
    blockAfter .mix (withBlock 0x207f43d0b3d0b6265acb3ccc7138fb9f) = some 0x52cbb2e786ef7ee4025fa69ace881e75 := by decide
/-- V27: a row-major State fails here. -/
theorem test_shr_orientation :
    blockAfter .shr (withBlock 0x000102030405060708090a0b0c0d0e0f) = some 0x00050a0f04090e03080d02070c01060b := by decide
/-- V29. -/
theorem test_mix_orientation :
    blockAfter .mix (withBlock 0x000102030405060708090a0b0c0d0e0f) = some 0x02070005060304010a0f080d0e0b0c09 := by decide
/-- V41: the example of R98. -/
theorem test_round :
    blockAfter .round { withBlock 0x00102030405060708090a0b0c0d0e0f0 with
      regK := blockToWords 0xd6aa74fdd2af72fadaa678f1d6ab76fe } = some 0x89d810e8855ace682d1843d8cb128fe4 := by decide
/-- V53: ROUND with `S` unwritten. -/
theorem test_round_uninit : answersAfter .round { loaded with sv := false } = some [⟨.uninit, 0⟩] := by decide
/-- V30; V33, a published expansion. -/
theorem test_kexp :
    (nextOf (exec .kexp { loaded with sv := false })).map (fun t => wordsToBlock t.regK) =
      some 0xd6aa74fdd2af72fadaa678f1d6ab76fe := by decide
theorem test_kexp_published :
    wordsToBlock (keyExpandStep (blockToWords 0x2b7e151628aed2a6abf7158809cf4f3c)) =
      0xa0fafe1788542cb123a339392a6c7605 := by decide
/-- V20 and V21, commonly published columns. -/
theorem test_mixColumn :
    mixColumn ⟨0xdb, 0x13, 0x53, 0x45⟩ = ⟨0x8e, 0x4d, 0xa1, 0xbc⟩ ∧
      mixColumn ⟨0xf2, 0x0a, 0x22, 0x5c⟩ = ⟨0x9f, 0xdc, 0x58, 0x9d⟩ := by decide

/-! ## Steps: faults, the halted state, reset -/

/-- The flags and the responses after a step. -/
def flagsAfter (s : State) : Option (Bool × Bool × Bool × BitVec 3 × List Response) :=
  (nextOf (step s)).map fun t => (t.sv, t.kv, t.flt, t.cause, t.responses)

/-- V54: GFMUL with multiplier 0 after reset. -/
theorem test_step_reserved :
    flagsAfter (State.reset.withFetchWord 8 0x70) = some (false, false, true, 1, [⟨.illegal, 0⟩]) := by decide
/-- V50: RDS after reset. -/
theorem test_step_uninit :
    flagsAfter (State.reset.withFetchWord 8 0x30) = some (false, false, true, 2, [⟨.uninit, 0⟩]) := by decide
/-- V57: a reserved word while halted; the first cause is kept. -/
theorem test_step_halted :
    flagsAfter (halted.withFetchWord 8 0x00) = some (true, true, true, 2, [⟨.halted, 0⟩]) := by decide
/-- V60, and R119: reset beside a command clears the flags and drops the command. -/
theorem test_step_reset :
    flagsAfter { halted with host := [.reset (some ⟨0x50, 0⟩)] } = some (false, false, false, 0, []) := by decide
/-- P4 steps 3 and 4: after a fault a load is refused and KV stays 0. -/
theorem test_step_load_refused :
    flagsAfter ({ halted with kv := false }.withFetchWord 8 0x20) = some (true, false, true, 2, [⟨.halted, 0⟩]) := by decide

/-! ## The assembler and the host's text -/

theorem test_readLine_gfmul :
    readLine ['G', 'F', 'M', 'U', 'L', ' ', '2', ',', ' ', '0', 'x', '5', '7', ' ', ';', 'c'] =
      .ok (some (.gfmul 2 0x57)) := by decide
theorem test_readLine_bare : readLine ['R', 'D', 'S', 'T'] = .ok (some .rdst) ∧ readLine [';', 'x'] = .ok none := by decide
theorem test_readLine_errors :
    readLine ['N', 'O', 'P'] = .error .unknownMnemonic ∧ readLine ['L', 'D', 'S', ' ', '1', '2'] = .error .badOperands ∧
      assemble (.gfmul 4 0x57) = .error .badMultiplier := by decide
/-- R52: `90:-`, and V11's encoded form. -/
theorem test_writtenForm_ignored : writtenForm (encode .sub) = ['9', '0', ':', '-'] := by decide
theorem test_writtenForm_byte :
    writtenForm (encode (.sbox 0x53)) = ['6', '0', ':'] ++ List.replicate 30 '0' ++ ['5', '3'] := by decide
/-- R64: "Two One Nine Two". -/
theorem test_plaintext :
    plaintextToBlock ['T', 'w', 'o', ' ', 'O', 'n', 'e', ' ', 'N', 'i', 'n', 'e', ' ', 'T', 'w', 'o'] =
      some 0x54776f204f6e65204e696e652054776f ∧ plaintextToBlock ['T', 'w', 'o'] = none := by decide
/-- P1: the output text of step 14. -/
theorem test_blockToText :
    blockToText false 0x8461c61a54400c1ed8f9de6b1823688b =
      ['8', '4', '6', '1', 'c', '6', '1', 'a', ' ', '5', '4', '4', '0', '0', 'c', '1', 'e', ' ',
       'd', '8', 'f', '9', 'd', 'e', '6', 'b', ' ', '1', '8', '2', '3', '6', '8', '8', 'b', ' '] := by decide

/-! ## Witnesses: the hypotheses of each statement can be met, clause by clause -/

theorem witness_DecodeEncodeAgree :
    Command.wellFormed ⟨0x10, 0xffffffffffffffffffffffffffffffff⟩ = true ∧ Command.wellFormed ⟨0x73, 0xff⟩ = true ∧
      Command.wellFormed ⟨0xD0, 0⟩ = true := by decide
theorem witness_EveryWordMatchesOneRowOrIsReserved : Opcode.kexp.word = Opcode.kexp.word := rfl
theorem witness_ReservedWordsFault :
    (0xFF : BitVec 8) ∉ legalWords ∧ ({ loaded with host := [.command ⟨0xFF, 0⟩] } : State).host =
      .command ⟨0xFF, 0⟩ :: [] ∧ ({ loaded with host := [.command ⟨0xFF, 0⟩] } : State).flt = false := by decide
theorem witness_IgnoredDataBitsDoNotMatter :
    ∀ n, n < usedBits 0x60 → (0x153 : Block).getLsbD n = (0x053 : Block).getLsbD n := by
  decide
theorem witness_AssemblerEmitsCanonicalCommands :
    AsmLine.wellFormed (.gfmul 1 0) = true ∧ AsmLine.wellFormed (.gfmul 3 0) = true ∧
      AsmLine.wellFormed (.gfmul 0 0) = false ∧ AsmLine.wellFormed (.gfmul 4 0) = false := by decide
theorem witness_StepRunsTheDecodedCommand :
    ({ loaded with host := [.command ⟨0x80, 0⟩] } : State).host = .command ⟨0x80, 0⟩ :: [] ∧
      decode ⟨0x80, 0⟩ = .ok .ark := by decide
theorem witness_StepIdlesWithNothingPresented : loaded.host = [] := rfl
/-- Every status the order of checks can give. -/
theorem witness_CommandChecksInOrder :
    expectedStatus 0x50 halted = .ok ∧ expectedStatus 0x00 halted = .halted ∧ expectedStatus 0x74 loaded = .illegal ∧
      expectedStatus 0x80 { loaded with kv := false } = .uninit ∧ expectedStatus 0xD0 { loaded with sv := false } = .ok ∧
      ({ loaded with host := [.command ⟨0x80, 0⟩] } : State).host = .command ⟨0x80, 0⟩ :: [] := by decide
theorem witness_HaltedCoreServesOnlyRdst :
    ({ halted with host := [.command ⟨0x50, 0⟩] } : State).flt = true ∧
      ({ halted with host := [.command ⟨0x50, 0⟩] } : State).host = .command ⟨0x50, 0⟩ :: [] ∧
      ({ halted with host := [.command ⟨0x51, 0⟩] } : State).host = .command ⟨0x51, 0⟩ :: [] ∧
      (0x51 : BitVec 8) ≠ 0x50 := by decide
theorem witness_ResetClearsTheFlags :
    ({ halted with host := [.reset (some ⟨0x10, 0⟩)] } : State).host = .reset (some ⟨0x10, 0⟩) :: [] := rfl
theorem witness_OnlyResetClearsFlags :
    (∃ t, step { loaded with host := [.command ⟨0x90, 0⟩] } = .next t) ∧ loaded.sv = true ∧ loaded.kv = true ∧
      (∃ t, step { halted with host := [.command ⟨0x90, 0⟩] } = .next t) ∧ halted.flt = true :=
  ⟨⟨_, rfl⟩, rfl, rfl, ⟨_, rfl⟩, rfl⟩
/-- A command that changes `S`, one that changes `K`, one that changes SV and one that changes KV. -/
theorem witness_OnlyListedCommandsWriteRegisters :
    (∃ t, step { loaded with host := [.command ⟨0x90, 0⟩] } = .next t ∧ t.regS ≠ loaded.regS) ∧
      (∃ t, step { loaded with host := [.command ⟨0xD0, 0⟩] } = .next t ∧ t.regK ≠ loaded.regK) ∧
      (∃ t, step { loaded with sv := false, host := [.command ⟨0x10, 0⟩] } = .next t ∧ t.sv ≠ false) ∧
      (∃ t, step { loaded with kv := false, host := [.command ⟨0x20, 0⟩] } = .next t ∧ t.kv ≠ false) :=
  ⟨⟨_, rfl, by decide⟩, ⟨_, rfl, by decide⟩, ⟨_, rfl, by decide⟩, ⟨_, rfl, by decide⟩⟩
theorem witness_FaultFlagsStayConsistent :
    ({ loaded with host := [.command ⟨0x00, 0⟩] } : State).FaultFlagsConsistent ∧ halted.FaultFlagsConsistent ∧
      ∃ t, step { loaded with host := [.command ⟨0x00, 0⟩] } = .next t := by
  refine ⟨by decide, by decide, ⟨_, rfl⟩⟩
theorem witness_RefusalsNeverCarryData :
    ({ halted with responses := [⟨.uninit, 0⟩, ⟨.ok, 0x53⟩], host := [.command ⟨0x90, 0⟩] } : State).RefusalsCarryNoData ∧
      ∃ t, step { halted with responses := [⟨.uninit, 0⟩, ⟨.ok, 0x53⟩], host := [.command ⟨0x90, 0⟩] } = .next t := by
  refine ⟨by decide, ⟨_, rfl⟩⟩
/-- Two states with different unwritten contents of both registers. -/
theorem witness_UnwrittenRegistersAreUnreadable :
    SameButUnreadable { loaded with sv := false, kv := false }
        { loaded with sv := false, kv := false, regS := blockToState 1, regK := blockToWords 1 } ∧
      loaded.regS ≠ blockToState 1 ∧ loaded.regK ≠ blockToWords 1 := by decide
theorem witness_RunGoesWrongExactlyWhenFaulted :
    ({ loaded with host := presenting [⟨0x90, 0⟩, ⟨0x00, 0⟩] } : State).flt = false ∧
      ({ loaded with host := presenting [⟨0x90, 0⟩, ⟨0x00, 0⟩] } : State).host = presenting [⟨0x90, 0⟩, ⟨0x00, 0⟩] := by
  decide
theorem witness_LoadedCoreNeverFaults : loaded.flt = false ∧ loaded.sv = true ∧ loaded.kv = true := by decide
theorem witness_BlockBytesAreBigEndian : (0 : Nat) < 8 ∧ (7 : Nat) < 8 := by decide
theorem witness_LdsLoadsTheState : loaded.flt = false ∧ State.reset.flt = false ∧ halted.flt = true := ⟨rfl, rfl, rfl⟩
theorem witness_LdkLoadsTheKey : loaded.flt = false ∧ State.reset.flt = false ∧ halted.flt = true := ⟨rfl, rfl, rfl⟩
theorem witness_RdsReturnsTheState :
    (loaded.flt = false ∧ loaded.sv = true) ∧ (State.reset.flt = false ∧ State.reset.sv = false) ∧ halted.flt = true :=
  ⟨⟨rfl, rfl⟩, ⟨rfl, rfl⟩, rfl⟩
theorem witness_RdkReturnsTheKey :
    (loaded.flt = false ∧ loaded.kv = true) ∧ (State.reset.flt = false ∧ State.reset.kv = false) ∧ halted.flt = true :=
  ⟨⟨rfl, rfl⟩, ⟨rfl, rfl⟩, rfl⟩
/-- The four examples of R66. -/
theorem witness_RdstReturnsTheStatus :
    (State.reset.sv = false ∧ State.reset.kv = false ∧ State.reset.flt = false ∧ State.reset.cause = 0) ∧
      (∃ s : State, s.sv = true ∧ s.kv = false ∧ s.flt = false ∧ s.cause = 0) ∧
      (loaded.sv = true ∧ loaded.kv = true ∧ loaded.flt = false ∧ loaded.cause = 0) ∧
      (∃ s : State, s.sv = false ∧ s.kv = false ∧ s.flt = true ∧ s.cause = 2) :=
  ⟨⟨rfl, rfl, rfl, rfl⟩, ⟨{ loaded with kv := false }, rfl, rfl, rfl, rfl⟩, ⟨rfl, rfl, rfl, rfl⟩,
    ⟨{ halted with sv := false, kv := false }, rfl, rfl, rfl, rfl⟩⟩
theorem witness_LoadThenReadReturnsTheBlock : State.reset.flt = false := rfl
theorem witness_SboxIsBijective : lookup 0x53 = lookup 0x53 := rfl
theorem witness_SboxMatchesItsConstruction : (0xFF : Byte) ≠ 0 := by decide
theorem witness_SboxAnswersTheLookup :
    State.reset.flt = false ∧ halted.flt = true ∧ lookup 0x52 = 0x00 := ⟨rfl, rfl, by decide⟩
theorem witness_GfMulIsLinearAndBijective : gfMul 0xff .three = gfMul 0xff .three := rfl
theorem witness_GfmulAnswersTheProduct : State.reset.flt = false ∧ halted.flt = true := ⟨rfl, rfl⟩
theorem witness_ArkAddsTheRoundKey :
    (loaded.flt = false ∧ loaded.sv = true ∧ loaded.kv = true) ∧
      ({ loaded with regK := blockToWords 0 } : State).regK = blockToWords 0 ∧
      (({ loaded with kv := false } : State).flt = false ∧ ({ loaded with kv := false } : State).kv = false) ∧
      (({ loaded with sv := false } : State).flt = false ∧ ({ loaded with sv := false } : State).sv = false) ∧
      halted.flt = true := ⟨⟨rfl, rfl, rfl⟩, rfl, ⟨rfl, rfl⟩, ⟨rfl, rfl⟩, rfl⟩
theorem witness_SubSubstitutesEveryByte :
    (loaded.flt = false ∧ loaded.sv = true) ∧ (∀ r c, (withBlock 0).regS.cell r c = 0) ∧
      (State.reset.flt = false ∧ State.reset.sv = false) ∧ halted.flt = true :=
  ⟨⟨rfl, rfl⟩, by decide, ⟨rfl, rfl⟩, rfl⟩
theorem witness_ShrRotatesTheRows :
    (loaded.flt = false ∧ loaded.sv = true) ∧
      (∀ c, (withBlock 0x01020304010203040102030401020304).regS.column c =
        (withBlock 0x01020304010203040102030401020304).regS.column 0) ∧
      (State.reset.flt = false ∧ State.reset.sv = false) ∧ halted.flt = true :=
  ⟨⟨rfl, rfl⟩, by decide, ⟨rfl, rfl⟩, rfl⟩
theorem witness_MixMultipliesTheColumns :
    (loaded.flt = false ∧ loaded.sv = true) ∧ (State.reset.flt = false ∧ State.reset.sv = false) ∧ halted.flt = true :=
  ⟨⟨rfl, rfl⟩, ⟨rfl, rfl⟩, rfl⟩
theorem witness_RoundRunsTheFourStages :
    (loaded.flt = false ∧ loaded.sv = true ∧ loaded.kv = true) ∧
      (({ loaded with kv := false } : State).flt = false ∧ ({ loaded with kv := false } : State).kv = false) ∧
      (({ loaded with sv := false } : State).flt = false ∧ ({ loaded with sv := false } : State).sv = false) ∧
      halted.flt = true := ⟨⟨rfl, rfl, rfl⟩, ⟨rfl, rfl⟩, ⟨rfl, rfl⟩, rfl⟩
theorem witness_RoundEqualsItsFourCommands : loaded.flt = false ∧ loaded.sv = true ∧ loaded.kv = true := by decide
theorem witness_KeyStepIsBijective : keyExpandStep (blockToWords 0) = keyExpandStep (blockToWords 0) := rfl
theorem witness_KexpExpandsTheKeyInPlace :
    (({ loaded with sv := false } : State).flt = false ∧ ({ loaded with sv := false } : State).kv = true) ∧
      (State.reset.flt = false ∧ State.reset.kv = false) ∧ halted.flt = true := ⟨⟨rfl, rfl⟩, ⟨rfl, rfl⟩, rfl⟩
theorem witness_Enc1AnswersEncrypt1 :
    ∃ (s : State) (cs : List Command), s.flt = false ∧ assemble (.enc1 1 2 3) = .ok cs ∧ s.host = presenting cs ++ [] :=
  ⟨{ loaded with host := presenting [⟨0x20, 2⟩, ⟨0x10, 1⟩, ⟨0x80, 0⟩, ⟨0x20, 3⟩, ⟨0xC0, 0⟩, ⟨0x30, 0⟩] }, _, rfl, rfl, rfl⟩
theorem witness_Enc1kAnswersEncrypt1AndTheDerivedKey :
    ∃ (s : State) (cs : List Command), s.flt = false ∧ assemble (.enc1k 1 2) = .ok cs ∧ s.host = presenting cs ++ [] :=
  ⟨{ loaded with
      host := presenting [⟨0x20, 2⟩, ⟨0x10, 1⟩, ⟨0x80, 0⟩, ⟨0xD0, 0⟩, ⟨0xC0, 0⟩, ⟨0x30, 0⟩, ⟨0x40, 0⟩] },
    _, rfl, rfl, rfl⟩

end Sys2Proof.Tests
end

/-! ## What one step can do, said once (30_encoding.md R48, 60_exceptions.md R112 to R119) -/

namespace Sys2Proof.Machine

/-- With nothing presented, a step changes nothing (R50). -/
theorem step_of_nothing {s : State} (h : s.host = []) : step s = .next s := by
  simp [step, nextEvent, h, idle]

/-- A reset wins over the command beside it (R119). -/
theorem step_of_reset {s : State} {b : Option Command} {rest : List HostEvent} (h : s.host = .reset b :: rest) :
    step s = .next (resetCore { s with host := rest }) := by
  simp [step, nextEvent, h]

/-- A command whose word is legal is run. -/
theorem step_of_decoded {s : State} {c : Command} {rest : List HostEvent} {i : Instr}
    (h : s.host = .command c :: rest) (hd : decode c = .ok i) : step s = exec i { s with host := rest } := by
  simp [step, nextEvent, h, hd]

/-- A command whose word is reserved is refused or faults (R49). -/
theorem step_of_reserved {s : State} {c : Command} {rest : List HostEvent} {why : Reserved}
    (h : s.host = .command c :: rest) (hd : decode c = .error why) :
    step s = .next (reservedWord { s with host := rest }) := by
  simp [step, nextEvent, h, hd]

/-- `CommandStep c s t`: the command `c`, taken from the host, brings the core from `s` to `t` (the order of R48). -/
inductive CommandStep (c : Command) (s : State) : State → Prop
  /-- Refused while halted, as every command but RDST is (R115). -/
  | refused (halted : s.flt = true) (notRdst : decode c ≠ .ok .rdst) : CommandStep c s (refuseHalted s)
  /-- `E_ILLEGAL` of a reserved word (R49). -/
  | illegal (why : Reserved) (running : s.flt = false) (reserved : decode c = .error why) :
      CommandStep c s (raiseFault .illegal s)
  /-- `E_UNINIT` of a command that reads an unwritten register (R112). -/
  | uninit (i : Instr) (running : s.flt = false) (decoded : decode c = .ok i)
      (unwritten : missing (readsOf i) s = true) : CommandStep c s (raiseFault .uninit s)
  /-- The instruction's own effect. -/
  | executed (i : Instr) (decoded : decode c = .ok i)
      (ready : i = .rdst ∨ s.flt = false ∧ missing (readsOf i) s = false) : CommandStep c s (effectOf i s)

/-- A step that takes a command is a `CommandStep`. -/
theorem commandStep_of_step {s t : State} {c : Command} {rest : List HostEvent}
    (h : s.host = .command c :: rest) (hst : step s = .next t) : CommandStep c { s with host := rest } t := by
  cases hd : decode c with
  | error why =>
    cases (step_of_reserved h hd).symm.trans hst
    obtain ⟨hf, hr⟩ | ⟨hf, hr⟩ := reservedWord_cases { s with host := rest } <;> rw [hr]
    · exact .refused hf (by simp [hd])
    · exact .illegal why hf hd
  | ok i =>
    have he : exec i { s with host := rest } = .next t := (step_of_decoded h hd).symm.trans hst
    obtain ⟨hf, hi, hx⟩ | ⟨hf, hm, hx⟩ | ⟨hr, hx⟩ := exec_cases i { s with host := rest } <;> cases hx.symm.trans he
    · exact .refused hf (by simp [hd, hi])
    · exact .uninit i hf hd hm
    · exact .executed i hd hr

/-! ### What the effect of an instruction leaves in each flag and register (R11 to R16, R22) -/

@[simp] theorem effectOf_flt (i : Instr) (s : State) : (effectOf i s).flt = s.flt := by
  cases i <;> rfl

@[simp] theorem effectOf_cause (i : Instr) (s : State) : (effectOf i s).cause = s.cause := by
  cases i <;> rfl

/-- LDS alone sets SV, and no instruction clears it (R15). -/
theorem effectOf_sv (i : Instr) (s : State) : (effectOf i s).sv = (s.sv || i.opcode == .lds) := by
  cases i <;> simp [effectOf, Instr.opcode]

/-- LDK alone sets KV, and no instruction clears it (R15). -/
theorem effectOf_kv (i : Instr) (s : State) : (effectOf i s).kv = (s.kv || i.opcode == .ldk) := by
  cases i <;> simp [effectOf, Instr.opcode]

/-- The rows that write `S` (R11, R22). -/
def rowsWritingS : List Opcode := [.lds, .ark, .sub, .shr, .mix, .round]

/-- The rows that write `K` (R12, R22). -/
def rowsWritingK : List Opcode := [.ldk, .kexp]

theorem effectOf_regS {i : Instr} (s : State) (h : i.opcode ∉ rowsWritingS) : (effectOf i s).regS = s.regS := by
  revert h
  cases i <;> simp [effectOf, Instr.opcode, rowsWritingS]

theorem effectOf_regK {i : Instr} (s : State) (h : i.opcode ∉ rowsWritingK) : (effectOf i s).regK = s.regK := by
  revert h
  cases i <;> simp [effectOf, Instr.opcode, rowsWritingK]

/-! ### CAUSE stays consistent with FLT (R16, R44, R112) -/

theorem resetCore_faultFlagsConsistent (s : State) : (resetCore s).FaultFlagsConsistent :=
  ⟨fun _ => rfl, nofun⟩

/-- A fault enters with FLT still 0, so it leaves its own code, 1 or 2, in CAUSE (R114). -/
theorem raiseFault_faultFlagsConsistent {s : State} (e : Cause) (running : s.flt = false) :
    (raiseFault e s).FaultFlagsConsistent := by
  cases e <;> simp [State.FaultFlagsConsistent, running, causeCode]

theorem CommandStep.faultFlagsConsistent {c : Command} {s t : State} (h : CommandStep c s t)
    (hs : s.FaultFlagsConsistent) : t.FaultFlagsConsistent := by
  cases h with
  | refused => exact hs
  | illegal why running => exact raiseFault_faultFlagsConsistent .illegal running
  | uninit i running => exact raiseFault_faultFlagsConsistent .uninit running
  | executed i => simpa [State.FaultFlagsConsistent] using hs

/-! ### What a command does to the flags and registers (R11 to R16, R22) -/

/-- A command only sets flags, and leaves the cause of a recorded fault. -/
theorem CommandStep.flags_kept {c : Command} {s t : State} (h : CommandStep c s t) :
    (s.sv = true → t.sv = true) ∧ (s.kv = true → t.kv = true) ∧
      (s.flt = true → t.flt = true ∧ t.cause = s.cause) := by
  cases h with
  | refused => simp
  | illegal => simp +contextual
  | uninit => simp +contextual
  | executed i => simp +contextual [effectOf_sv, effectOf_kv]

/-- A refusal and a fault leave the registers and their valid flags; only an instruction's own effect can write them. -/
theorem CommandStep.sameRegisters_or_executed {c : Command} {s t : State} (h : CommandStep c s t) :
    SameRegisters s t ∨ ∃ i, decode c = .ok i ∧ t = effectOf i s := by
  cases h with
  | refused => exact .inl ⟨rfl, rfl, rfl, rfl⟩
  | illegal => exact .inl ⟨rfl, rfl, rfl, rfl⟩
  | uninit => exact .inl ⟨rfl, rfl, rfl, rfl⟩
  | executed i decoded => exact .inr ⟨i, decoded, rfl⟩

/-- The word of a command that decodes is the word of its instruction's row (R41). -/
theorem word_of_decode {c : Command} {i : Instr} (h : decode c = .ok i) : c.cw = i.opcode.word := by
  obtain ⟨op, hop, rfl⟩ := (decode_ok_iff c i).mp h
  rw [word_of_decodeWord hop]
  cases op <;> rfl

/-! ### Two states that differ at most in what no command can read (R15, R21) -/

section SameButUnreadable

variable {s t : State}

theorem sameButUnreadable_takeEvent (h : SameButUnreadable s t) (rest : List HostEvent) :
    SameButUnreadable { s with host := rest } { t with host := rest } := by
  obtain ⟨sv, kv, flt, cause, -, responses, regS, regK⟩ := h
  exact ⟨sv, kv, flt, cause, rfl, responses, regS, regK⟩

theorem sameButUnreadable_respond (h : SameButUnreadable s t) (st : Status) {d e : Block} (hd : d = e) :
    SameButUnreadable (respond st d s) (respond st e t) := by
  obtain ⟨sv, kv, flt, cause, host, responses, regS, regK⟩ := h
  exact ⟨sv, kv, flt, cause, host, by simp [responses, hd], regS, regK⟩

theorem sameButUnreadable_writeS (h : SameButUnreadable s t) {v w : AesState} (hv : v = w) :
    SameButUnreadable (writeS v s) (writeS w t) := by
  obtain ⟨sv, kv, flt, cause, host, responses, -, regK⟩ := h
  exact ⟨sv, kv, flt, cause, host, responses, fun _ => hv, regK⟩

theorem sameButUnreadable_writeK (h : SameButUnreadable s t) {v w : RoundKey} (hv : v = w) :
    SameButUnreadable (writeK v s) (writeK w t) := by
  obtain ⟨sv, kv, flt, cause, host, responses, regS, -⟩ := h
  exact ⟨sv, kv, flt, cause, host, responses, regS, fun _ => hv⟩

theorem sameButUnreadable_loadS (h : SameButUnreadable s t) (v : AesState) :
    SameButUnreadable (loadS v s) (loadS v t) := by
  obtain ⟨-, kv, flt, cause, host, responses, -, regK⟩ := h
  exact ⟨rfl, kv, flt, cause, host, responses, fun _ => rfl, regK⟩

theorem sameButUnreadable_loadK (h : SameButUnreadable s t) (v : RoundKey) :
    SameButUnreadable (loadK v s) (loadK v t) := by
  obtain ⟨sv, -, flt, cause, host, responses, regS, -⟩ := h
  exact ⟨sv, rfl, flt, cause, host, responses, regS, fun _ => rfl⟩

theorem sameButUnreadable_refuseHalted (h : SameButUnreadable s t) :
    SameButUnreadable (refuseHalted s) (refuseHalted t) := sameButUnreadable_respond h .halted rfl

theorem sameButUnreadable_raiseFault (h : SameButUnreadable s t) (e : Cause) :
    SameButUnreadable (raiseFault e s) (raiseFault e t) := by
  obtain ⟨sv, kv, flt, cause, host, responses, regS, regK⟩ := h
  exact ⟨sv, kv, rfl, by simp [flt, cause], host, by simp [responses], regS, regK⟩

/-- The free values a reset leaves in `S` and `K` may differ, but it clears the valid flags of both (R126). -/
theorem sameButUnreadable_resetCore (h : SameButUnreadable s t) :
    SameButUnreadable (resetCore s) (resetCore t) := by
  obtain ⟨-, -, -, -, host, responses, -, -⟩ := h
  exact ⟨rfl, rfl, rfl, rfl, host, responses, nofun, nofun⟩

theorem missing_of_sameButUnreadable (h : SameButUnreadable s t) (rd : Reads) : missing rd s = missing rd t := by
  obtain ⟨sv, kv, -⟩ := h
  simp [missing, sv, kv]

theorem statusView_of_sameButUnreadable (h : SameButUnreadable s t) : statusView s = statusView t := by
  obtain ⟨sv, kv, flt, cause, -⟩ := h
  simp [statusView, sv, kv, flt, cause]

/-- The check for unwritten registers lets a command read `S` only where the two states hold the same `S`. -/
theorem regS_of_sameButUnreadable (h : SameButUnreadable s t) {rd : Reads} (ready : missing rd s = false)
    (reads : rd.readsS = true) : s.regS = t.regS := by
  obtain ⟨-, -, -, -, -, -, regS, -⟩ := h
  exact regS (by simp_all [missing])

/-- The check for unwritten registers lets a command read `K` only where the two states hold the same `K`. -/
theorem regK_of_sameButUnreadable (h : SameButUnreadable s t) {rd : Reads} (ready : missing rd s = false)
    (reads : rd.readsK = true) : s.regK = t.regK := by
  obtain ⟨-, -, -, -, -, -, -, regK⟩ := h
  exact regK (by simp_all [missing])

/-- The effect of an instruction whose registers are written depends on nothing unreadable. -/
theorem sameButUnreadable_effectOf (h : SameButUnreadable s t) (i : Instr) (ready : missing (readsOf i) s = false) :
    SameButUnreadable (effectOf i s) (effectOf i t) := by
  have sameS := regS_of_sameButUnreadable h ready
  have sameK := regK_of_sameButUnreadable h ready
  cases i with
  | lds din => exact sameButUnreadable_respond (sameButUnreadable_loadS h _) .ok rfl
  | ldk din => exact sameButUnreadable_respond (sameButUnreadable_loadK h _) .ok rfl
  | rds => exact sameButUnreadable_respond h .ok (by rw [sameS rfl])
  | rdk => exact sameButUnreadable_respond h .ok (by rw [sameK rfl])
  | rdst => exact sameButUnreadable_respond h .ok (by rw [statusView_of_sameButUnreadable h])
  | sbox | gfmul1 | gfmul2 | gfmul3 => exact sameButUnreadable_respond h .ok rfl
  | ark | round =>
    exact sameButUnreadable_respond (sameButUnreadable_writeS h (by rw [sameS rfl, sameK rfl])) .ok rfl
  | sub | shr | mix => exact sameButUnreadable_respond (sameButUnreadable_writeS h (by rw [sameS rfl])) .ok rfl
  | kexp => exact sameButUnreadable_respond (sameButUnreadable_writeK h (by rw [sameK rfl])) .ok rfl

/-- Both runs of a command pass the checks of R48 in the same way. -/
theorem sameButUnreadable_runCommand (h : SameButUnreadable s t) {rd : Reads} {effect : State → State}
    (heffect : missing rd s = false → SameButUnreadable (effect s) (effect t)) :
    ∃ s' t', runCommand rd effect s = .next s' ∧ runCommand rd effect t = .next t' ∧ SameButUnreadable s' t' := by
  have hm := missing_of_sameButUnreadable h rd
  obtain ⟨-, -, hf, -⟩ := id h
  cases halted : s.flt with
  | true => exact ⟨_, _, runCommand_halted halted, runCommand_halted (hf ▸ halted), sameButUnreadable_refuseHalted h⟩
  | false =>
    cases unwritten : missing rd s with
    | true =>
      exact ⟨_, _, runCommand_missing halted unwritten, runCommand_missing (hf ▸ halted) (hm ▸ unwritten),
        sameButUnreadable_raiseFault h .uninit⟩
    | false =>
      exact ⟨_, _, runCommand_ready halted unwritten, runCommand_ready (hf ▸ halted) (hm ▸ unwritten),
        heffect unwritten⟩

theorem sameButUnreadable_exec (h : SameButUnreadable s t) (i : Instr) :
    ∃ s' t', exec i s = .next s' ∧ exec i t = .next t' ∧ SameButUnreadable s' t' := by
  by_cases hi : i = .rdst
  · subst hi
    exact ⟨_, _, exec_rdst s, exec_rdst t, sameButUnreadable_effectOf h .rdst rfl⟩
  · rw [exec_of_ne_rdst i s hi, exec_of_ne_rdst i t hi]
    exact sameButUnreadable_runCommand h (sameButUnreadable_effectOf h i)

theorem sameButUnreadable_reservedWord (h : SameButUnreadable s t) :
    SameButUnreadable (reservedWord s) (reservedWord t) := by
  obtain ⟨-, -, flt, -⟩ := id h
  unfold reservedWord
  rw [← flt]
  split
  · exact sameButUnreadable_refuseHalted h
  · exact sameButUnreadable_raiseFault h .illegal

theorem sameButUnreadable_step (h : SameButUnreadable s t) :
    ∃ s' t', step s = .next s' ∧ step t = .next t' ∧ SameButUnreadable s' t' := by
  obtain ⟨-, -, -, -, host, -⟩ := id h
  have taken := sameButUnreadable_takeEvent h
  obtain ⟨hs, hx⟩ | ⟨b, rest, hs, hx⟩ | ⟨c, rest, i, hs, hd, hx⟩ | ⟨c, rest, why, hs, hd, hx⟩ := step_cases s
  · exact ⟨_, _, hx, step_of_nothing (host ▸ hs), h⟩
  · exact ⟨_, _, hx, step_of_reset (host ▸ hs), sameButUnreadable_resetCore (taken rest)⟩
  · rw [hx, step_of_decoded (host ▸ hs) hd]
    exact sameButUnreadable_exec (taken rest) i
  · exact ⟨_, _, hx, step_of_reserved (host ▸ hs) hd, sameButUnreadable_reservedWord (taken rest)⟩

end SameButUnreadable

/-! ### The statements of the state family -/

/-- Settles O18: by what the step takes from the host; a fault is entered only while FLT is 0. -/
theorem faultFlagsStayConsistent : Obligations.FaultFlagsStayConsistent := by
  intro s t hs hst
  match hhost : s.host with
  | [] =>
    cases (step_of_nothing hhost).symm.trans hst
    exact hs
  | .reset _ :: rest =>
    cases (step_of_reset hhost).symm.trans hst
    exact resetCore_faultFlagsConsistent _
  | .command _ :: _ => exact (commandStep_of_step hhost hst).faultFlagsConsistent hs

/-- Settles O20: each shared operation and each effect keeps the relation, because a command runs only where the registers
it reads are written. -/
theorem unwrittenRegistersAreUnreadable : Obligations.UnwrittenRegistersAreUnreadable :=
  fun _ _ h => sameButUnreadable_step h

/-- Settles O16: by what a command can do to the flags in each of its outcomes. -/
theorem onlyResetClearsFlags : Obligations.OnlyResetClearsFlags :=
  fun _ _ _ _ hhost hst => (commandStep_of_step hhost hst).flags_kept

/-- Settles O17: a register or valid flag changes only by an instruction's own effect, and then the row writes it. -/
theorem onlyListedCommandsWriteRegisters : Obligations.OnlyListedCommandsWriteRegisters := by
  intro s t c rest hhost hst
  obtain ⟨hS, hK, hsv, hkv⟩ | ⟨i, hd, rfl⟩ := (commandStep_of_step hhost hst).sameRegisters_or_executed
  · exact ⟨absurd hS, absurd hK, absurd hsv, absurd hkv⟩
  · rw [word_of_decode hd]
    refine ⟨fun h => ?_, fun h => ?_, fun h => ?_, fun h => ?_⟩
    · have : i.opcode ∈ rowsWritingS := by_contra fun hi => h (effectOf_regS _ hi)
      exact List.mem_map_of_mem (f := Opcode.word) this
    · have : i.opcode ∈ rowsWritingK := by_contra fun hi => h (effectOf_regK _ hi)
      exact List.mem_map_of_mem (f := Opcode.word) this
    · have : i.opcode = .lds := by_contra fun hi => h (by simp [effectOf_sv, hi])
      rw [this]; rfl
    · have : i.opcode = .ldk := by_contra fun hi => h (by simp [effectOf_kv, hi])
      rw [this]; rfl

/-- Settles O15: the flags are fixed at reset, and no response has been given. -/
theorem resetStateMeetsTheInvariants : Obligations.ResetStateMeetsTheInvariants :=
  ⟨rfl, rfl, rfl, rfl, rfl, ⟨fun _ => rfl, nofun⟩, nofun⟩

/-- Settles O55: cell by cell. -/
theorem keySeenAsState : Obligations.KeySeenAsState :=
  ⟨keyState_cell, fun b => AesState.ext_cell fun r c => by
    rw [keyState_cell, blockToWords_byte, blockToState_cell]⟩

end Sys2Proof.Machine

/-! ## The statements of the memory family (20_memory.md R29, R36, R40) -/

namespace Sys2Proof.Machine

/-- Settles O8: by what a step does with a command whose word is legal. -/
theorem stepRunsTheDecodedCommand : Obligations.StepRunsTheDecodedCommand :=
  fun _ _ _ _ hhost hdecode => step_of_decoded hhost hdecode

/-- Settles O23: by the bits of a byte of a Block; a Byte holds nothing from bit 8 up, which `n < 8` excludes. -/
theorem blockBytesAreBigEndian : Obligations.BlockBytesAreBigEndian := by
  intro b k n hn
  rw [getLsbD_byteOfBlock, decide_eq_true hn, Bool.true_and]

end Sys2Proof.Machine

/-! ## The statements of the encoding family (30_encoding.md) -/

namespace Sys2Proof

/-! ### Decoding and encoding (R41, R42, R46, R47, R52) -/

/-- An instruction is its row and its data operand. -/
@[simp] theorem withOperands_dataOperand (i : Instr) : withOperands i.opcode i.dataOperand = i := by
  cases i <;> simp [withOperands, Instr.opcode, Instr.dataOperand]

@[simp] theorem opcode_withOperands (op : Opcode) (din : Block) : (withOperands op din).opcode = op := by
  cases op <;> rfl

theorem decode_encode (i : Instr) : decode (encode i) = .ok i :=
  (decode_word i.opcode i.dataOperand).trans (congrArg Except.ok (withOperands_dataOperand i))

theorem getLsbD_zext128_byteOperand (din : Block) (n : Nat) :
    (zext128 (byteOperand din)).getLsbD n = (decide (n < 8) && din.getLsbD n) := by
  by_cases hn : n < 8
  · have : n < 128 := by omega
    simp [zext128, byteOperand, hn, this]
  · simp [zext128, byteOperand, hn]

/-- A command's instruction keeps the bits of `din` that its word uses, and no others (R42). -/
theorem getLsbD_dataOperand_withOperands (op : Opcode) (din : Block) (n : Nat) :
    (withOperands op din).dataOperand.getLsbD n = (decide (n < usedBits op.word) && din.getLsbD n) := by
  cases op with
  | lds | ldk =>
    change din.getLsbD n = (decide (n < 128) && din.getLsbD n)
    by_cases hn : n < 128
    · simp [hn]
    · simp [hn, BitVec.getLsbD_of_ge din n (Nat.le_of_not_lt hn)]
  | sbox | gfmul1 | gfmul2 | gfmul3 => exact getLsbD_zext128_byteOperand din n
  | rds | rdk | rdst | ark | sub | shr | mix | round | kexp =>
    change (0 : Block).getLsbD n = (decide (n < 0) && din.getLsbD n)
    simp

/-- The ignored bits of a command are those from `usedBits` up. -/
theorem getLsbD_of_ignoredZero {c : Command} (h : c.ignoredZero = true) {n : Nat} (hn : usedBits c.cw ≤ n) :
    c.din.getLsbD n = false := by
  have hz : c.din >>> usedBits c.cw = 0 := by simpa [Command.ignoredZero] using h
  have hbit := congrArg (fun b : Block => b.getLsbD (n - usedBits c.cw)) hz
  simpa [Nat.add_sub_cancel' hn] using hbit

/-- A row's word with zero in every ignored bit of `din` is the encoding of what it decodes to. -/
theorem encode_withOperands {op : Opcode} {din : Block} (h : Command.ignoredZero ⟨op.word, din⟩ = true) :
    encode (withOperands op din) = ⟨op.word, din⟩ := by
  have hdata : (withOperands op din).dataOperand = din := by
    apply BitVec.eq_of_getLsbD_eq
    intro n _
    rw [getLsbD_dataOperand_withOperands]
    by_cases hn : n < usedBits op.word
    · simp [hn]
    · simp [hn, getLsbD_of_ignoredZero h (Nat.le_of_not_lt hn)]
  simp [encode, hdata]

/-- The encoder emits a legal word with zero in every ignored bit (R52): one law per instruction. -/
theorem encode_wellFormed (i : Instr) : (encode i).wellFormed = true := by
  cases i with
  | lds din => exact Laws.EncodesCanonically.lds din
  | ldk din => exact Laws.EncodesCanonically.ldk din
  | rds => exact Laws.EncodesCanonically.rds
  | rdk => exact Laws.EncodesCanonically.rdk
  | rdst => exact Laws.EncodesCanonically.rdst
  | sbox x => exact Laws.EncodesCanonically.sbox x
  | gfmul1 a => exact Laws.EncodesCanonically.gfmul1 a
  | gfmul2 a => exact Laws.EncodesCanonically.gfmul2 a
  | gfmul3 a => exact Laws.EncodesCanonically.gfmul3 a
  | ark => exact Laws.EncodesCanonically.ark
  | sub => exact Laws.EncodesCanonically.sub
  | shr => exact Laws.EncodesCanonically.shr
  | mix => exact Laws.EncodesCanonically.mix
  | round => exact Laws.EncodesCanonically.round
  | kexp => exact Laws.EncodesCanonically.kexp

theorem wellFormed_iff (c : Command) : c.wellFormed = true ↔ c.cw ∈ legalWords ∧ c.ignoredZero = true := by
  simp [Command.wellFormed, Command.legalWord]

theorem exists_opcode_of_legal {cw : BitVec 8} (h : cw ∈ legalWords) : ∃ op : Opcode, cw = op.word := by
  have hok := (decodeWord_isOk_iff cw).mpr h
  cases hd : decodeWord cw with
  | ok op => exact ⟨op, word_of_decodeWord hd⟩
  | error why => simp [hd, Except.isOk, Except.toBool] at hok

theorem word_mem_legalWords (op : Opcode) : op.word ∈ legalWords :=
  (decodeWord_isOk_iff op.word).mp (by rw [decodeWord_word]; rfl)

/-- A word outside the map decodes to nothing (R47, R49). -/
theorem decode_of_reserved {c : Command} (h : c.cw ∉ legalWords) : ∃ why, decode c = .error why := by
  cases hd : decode c with
  | error why => exact ⟨why, rfl⟩
  | ok i =>
    obtain ⟨op, hop, -⟩ := (decode_ok_iff c i).mp hd
    exact absurd (word_of_decodeWord hop ▸ word_mem_legalWords op) h

/-- Commands of one word that agree on the bits the word uses decode alike (R42): instructions of one row with one data
operand are one instruction. -/
theorem decode_eq_of_usedBits {cw : BitVec 8} {d e : Block}
    (h : ∀ n, n < usedBits cw → d.getLsbD n = e.getLsbD n) : decode ⟨cw, d⟩ = decode ⟨cw, e⟩ := by
  by_cases hcw : cw ∈ legalWords
  · obtain ⟨op, rfl⟩ := exists_opcode_of_legal hcw
    have hdata : (withOperands op d).dataOperand = (withOperands op e).dataOperand := by
      apply BitVec.eq_of_getLsbD_eq
      intro n _
      rw [getLsbD_dataOperand_withOperands, getLsbD_dataOperand_withOperands]
      by_cases hn : n < usedBits op.word
      · rw [h n hn]
      · simp [hn]
    have hinstr : withOperands op d = withOperands op e := by
      rw [← withOperands_dataOperand (withOperands op d), ← withOperands_dataOperand (withOperands op e), hdata,
        opcode_withOperands, opcode_withOperands]
    rw [decode_word, decode_word, hinstr]
  · cases hd : decodeWord cw with
    | ok op => exact absurd (word_of_decodeWord hd ▸ word_mem_legalWords op) hcw
    | error why => simp [decode, hd, Except.map]

/-! ### The assembler (R52, R53) -/

theorem assemble_of_expandLine {l : AsmLine} {is : List Instr} (h : expandLine l = .ok is) :
    assemble l = .ok (is.map encode) := by
  simp [assemble, h, Except.map]

/-- Only a multiplier other than 1, 2, 3 stops a line from standing for instructions. -/
theorem expandLine_of_wellFormed {l : AsmLine} (h : l.wellFormed = true) :
    ∃ is, expandLine l = .ok is ∧ is ≠ [] := by
  cases l with
  | gfmul b x =>
    obtain (rfl | rfl) | rfl : (b = 1 ∨ b = 2) ∨ b = 3 := by simpa [AsmLine.wellFormed] using h
    · exact ⟨_, rfl, List.cons_ne_nil _ _⟩
    · exact ⟨_, rfl, List.cons_ne_nil _ _⟩
    · exact ⟨_, rfl, List.cons_ne_nil _ _⟩
  | lds | ldk | rds | rdk | rdst | sbox | ark | sub | shr | mix | round | kexp | xtime | enc1 | enc1k =>
    exact ⟨_, rfl, List.cons_ne_nil _ _⟩

theorem assemble_of_not_wellFormed {l : AsmLine} (h : l.wellFormed = false) : assemble l = .error .badMultiplier := by
  cases l with
  | gfmul b x =>
    match b with
    | 0 => rfl
    | 1 | 2 | 3 => cases h
    | _ + 4 => rfl
  | lds | ldk | rds | rdk | rdst | sbox | ark | sub | shr | mix | round | kexp | xtime | enc1 | enc1k =>
    cases h

/-- Every command a line assembles to is an encoding. -/
theorem canonical_of_mem_map_encode {is : List Instr} {c : Command} (h : c ∈ is.map encode) :
    c.wellFormed = true ∧ ∃ i, decode c = .ok i := by
  obtain ⟨i, -, rfl⟩ := List.mem_map.mp h
  exact ⟨encode_wellFormed i, i, decode_encode i⟩

/-! ### Settled without a step of the machine -/

/-- Settles O2: an instruction is its row and the bits of `din` its row uses, and a canonical command has no other bits. -/
theorem decodeEncodeAgree : Obligations.DecodeEncodeAgree := by
  refine ⟨decode_encode, fun ⟨cw, din⟩ h => ?_⟩
  obtain ⟨hlegal, hzero⟩ := (wellFormed_iff _).mp h
  obtain ⟨op, rfl⟩ := exists_opcode_of_legal hlegal
  exact ⟨withOperands op din, decode_word op din, encode_withOperands hzero⟩

/-- Settles O6: every line is the list of its instructions, encoded. -/
theorem assemblerEmitsCanonicalCommands : Obligations.AssemblerEmitsCanonicalCommands := by
  refine ⟨fun b x => ⟨rfl, rfl, rfl, rfl, rfl, rfl, rfl, rfl, rfl, rfl, rfl, rfl, rfl, rfl, rfl⟩, fun l => ⟨fun h => ?_,
    assemble_of_not_wellFormed⟩⟩
  obtain ⟨is, his, hne⟩ := expandLine_of_wellFormed h
  exact ⟨is.map encode, assemble_of_expandLine his, mt List.map_eq_nil_iff.mp hne,
    fun c hc => canonical_of_mem_map_encode hc⟩

/-- Settles O1: by the decoder's match. -/
theorem opcodeMapDecodes : Obligations.OpcodeMapDecodes := fun din =>
  ⟨decode_word .lds din, decode_word .ldk din, decode_word .rds din, decode_word .rdk din, decode_word .rdst din,
    decode_word .sbox din, decode_word .gfmul1 din, decode_word .gfmul2 din, decode_word .gfmul3 din,
    decode_word .ark din, decode_word .sub din, decode_word .shr din, decode_word .mix din, decode_word .round din,
    decode_word .kexp din⟩

/-- Settles O3: the decoder names the one row of a word. -/
theorem everyWordMatchesOneRowOrIsReserved : Obligations.EveryWordMatchesOneRowOrIsReserved := by
  refine ⟨fun op op' h => ?_, fun cw => ?_⟩
  · have hdecode : Except.ok op = decodeWord op'.word := h ▸ (decodeWord_word op).symm
    exact Except.ok.inj (hdecode.trans (decodeWord_word op'))
  · cases hd : decodeWord cw with
    | ok op => exact .inl ⟨op, rfl, (word_of_decodeWord hd).symm⟩
    | error why =>
      refine .inr ⟨⟨why, rfl⟩, fun op hop => ?_⟩
      rw [← hop, decodeWord_word] at hd
      cases hd

/-- Settles O7: each expansion encoded. -/
theorem pseudoInstructionExpansions : Obligations.PseudoInstructionExpansions :=
  fun _ _ _ _ => ⟨rfl, rfl, rfl, rfl⟩

end Sys2Proof

namespace Sys2Proof.Machine

/-! ### What an effect does to the host's side and the responses -/

@[simp] theorem effectOf_host (i : Instr) (s : State) : (effectOf i s).host = s.host := by
  cases i <;> rfl

@[simp] theorem effectOf_resets (i : Instr) (s : State) : (effectOf i s).resets = s.resets := by
  cases i <;> rfl

/-- An effect does not look at the host's later events. -/
theorem effectOf_withHost (i : Instr) (s : State) (host : List HostEvent) :
    effectOf i { s with host := host } = { effectOf i s with host := host } := by
  cases i <;> rfl

/-- An effect answers once, with status OK (R43). -/
theorem effectOf_answers (i : Instr) (s : State) : ∃ d, Answers s (effectOf i s) .ok d := by
  cases i <;> exact ⟨_, rfl⟩

/-! ### Every step answers, and only OK carries data (R43) -/

theorem exec_of_ready {i : Instr} {s : State} (h : i = .rdst ∨ s.flt = false ∧ missing (readsOf i) s = false) :
    exec i s = .next (effectOf i s) := by
  obtain rfl | ⟨hflt, hready⟩ := h
  · exact exec_rdst s
  · by_cases hi : i = .rdst
    · rw [hi]; exact exec_rdst s
    · rw [exec_of_ne_rdst i s hi, runCommand_ready hflt hready]

theorem step_next (s : State) : ∃ t, step s = .next t := by
  obtain ⟨-, hx⟩ | ⟨_, _, -, hx⟩ | ⟨_, rest, i, -, -, hx⟩ | ⟨_, _, _, -, -, hx⟩ := step_cases s
  · exact ⟨_, hx⟩
  · exact ⟨_, hx⟩
  · rw [hx]
    obtain ⟨-, -, he⟩ | ⟨-, -, he⟩ | ⟨-, he⟩ := exec_cases i { s with host := rest } <;> exact ⟨_, he⟩
  · exact ⟨_, hx⟩

theorem CommandStep.response {c : Command} {s t : State} (h : CommandStep c s t) :
    ∃ st d, Answers s t st d ∧ (st ≠ .ok → d = 0) := by
  cases h with
  | refused => exact ⟨.halted, 0, rfl, fun _ => rfl⟩
  | illegal => exact ⟨.illegal, 0, rfl, fun _ => rfl⟩
  | uninit => exact ⟨.uninit, 0, rfl, fun _ => rfl⟩
  | executed i =>
    obtain ⟨d, hd⟩ := effectOf_answers i s
    exact ⟨.ok, d, hd, absurd rfl⟩

theorem refusalsCarryNoData_of_answers {s t : State} {st : Status} {d : Block} (hs : s.RefusalsCarryNoData)
    (h : Answers s t st d) (hd : st ≠ .ok → d = 0) : t.RefusalsCarryNoData := by
  intro r hr
  rw [h, List.mem_append, List.mem_singleton] at hr
  obtain hr | rfl := hr
  · exact hs r hr
  · exact hd

/-- Settles O19: idling and reset add no response; a command adds one, which carries data only with status OK. -/
theorem refusalsNeverCarryData : Obligations.RefusalsNeverCarryData := by
  intro s t hs hst
  match hhost : s.host with
  | [] =>
    cases (step_of_nothing hhost).symm.trans hst
    exact hs
  | .reset _ :: rest =>
    cases (step_of_reset hhost).symm.trans hst
    exact hs
  | .command _ :: _ =>
    obtain ⟨_, _, hanswers, hdata⟩ := (commandStep_of_step hhost hst).response
    exact refusalsCarryNoData_of_answers hs hanswers hdata

/-! ### Reserved words and ignored bits (R42, R49) -/

/-- The classes of R49, checked on each of the 256 words. -/
theorem notMem_legalWords_iff (cw : BitVec 8) : cw ∉ legalWords ↔
    (cw.extractLsb' 4 4 = 0x0#4 ∨ cw.extractLsb' 4 4 = 0xE#4 ∨ cw.extractLsb' 4 4 = 0xF#4 ∨
      cw.extractLsb' 2 2 ≠ 0#2 ∨ (cw.extractLsb' 4 4 ≠ 0x7#4 ∧ cw.extractLsb' 0 2 ≠ 0#2) ∨ cw = 0x70) := by
  revert cw; decide

theorem reservedWord_of_running {s : State} (h : s.flt = false) : reservedWord s = raiseFault .illegal s := by
  simp [reservedWord, h]

theorem raiseFault_cause_of_running {s : State} (e : Cause) (h : s.flt = false) :
    (raiseFault e s).cause = causeCode e := by
  simp [h]

/-- Of the 256 words, 15 are in the map. -/
theorem reservedWords_length :
    ((List.range 256).filter (fun n => !legalWords.contains (BitVec.ofNat 8 n))).length = 241 := by decide +kernel

/-- Settles O4: a word outside the map decodes to nothing, so the step raises `E_ILLEGAL`. -/
theorem reservedWordsFault : Obligations.ReservedWordsFault := by
  refine ⟨reservedWords_length, notMem_legalWords_iff, fun s c rest hcw hhost hflt => ?_⟩
  obtain ⟨why, hd⟩ := decode_of_reserved hcw
  have hword : reservedWord { s with host := rest } = raiseFault .illegal { s with host := rest } :=
    reservedWord_of_running hflt
  exact ⟨_, (step_of_reserved hhost hd).trans (congrArg _ hword), ⟨rfl, rfl, rfl, rfl⟩, rfl,
    raiseFault_cause_of_running .illegal hflt, rfl, rfl, rfl⟩

/-- A step looks at a command through what it decodes to. -/
theorem step_eq_of_decode_eq (s : State) {c c' : Command} (rest : List HostEvent) (h : decode c = decode c') :
    step { s with host := .command c :: rest } = step { s with host := .command c' :: rest } := by
  cases hd : decode c with
  | ok i => rw [step_of_decoded rfl hd, step_of_decoded rfl (h ▸ hd)]
  | error why => rw [step_of_reserved rfl hd, step_of_reserved rfl (h ▸ hd)]

/-- Settles O5: commands that agree on the used bits decode alike, and every encoding is canonical. -/
theorem ignoredDataBitsDoNotMatter : Obligations.IgnoredDataBitsDoNotMatter :=
  ⟨fun s _ _ _ rest h => step_eq_of_decode_eq s rest (decode_eq_of_usedBits h),
    fun i => ((wellFormed_iff _).mp (encode_wellFormed i)).2⟩

/-! ### The order of checks (R48) -/

/-- The words of R22's table are the words of the instructions that read each register. -/
theorem word_mem_wordsReading (i : Instr) :
    (i.opcode.word ∈ wordsReadingS ↔ (readsOf i).readsS = true) ∧
      (i.opcode.word ∈ wordsReadingK ↔ (readsOf i).readsK = true) := by
  cases i <;> simp [Instr.opcode, Opcode.word, wordsReadingS, wordsReadingK, readsOf, readsNone, readsOnlyS, readsOnlyK,
    readsBoth]

theorem missing_iff {c : Command} {i : Instr} (h : decode c = .ok i) (s : State) :
    missing (readsOf i) s = true ↔
      (c.cw ∈ wordsReadingS ∧ s.sv = false) ∨ (c.cw ∈ wordsReadingK ∧ s.kv = false) := by
  obtain ⟨hS, hK⟩ := word_mem_wordsReading i
  rw [word_of_decode h, hS, hK]
  simp [missing]

theorem cw_mem_of_decode {c : Command} {i : Instr} (h : decode c = .ok i) : c.cw ∈ legalWords :=
  word_of_decode h ▸ word_mem_legalWords i.opcode

theorem cw_notMem_of_decode {c : Command} {why : Reserved} (h : decode c = .error why) : c.cw ∉ legalWords := by
  intro hlegal
  obtain ⟨op, hop⟩ := exists_opcode_of_legal hlegal
  have hd : decode c = .ok (withOperands op c.din) := (decode_ok_iff _ _).mpr ⟨op, hop ▸ decodeWord_word op, rfl⟩
  cases hd.symm.trans h

theorem expectedStatus_of_illegal {c : Command} {s : State} {why : Reserved} (running : s.flt = false)
    (reserved : decode c = .error why) : expectedStatus c.cw s = .illegal := by
  simp [expectedStatus, running, cw_notMem_of_decode reserved]

theorem expectedStatus_of_decoded {c : Command} {s : State} {i : Instr} (running : s.flt = false)
    (decoded : decode c = .ok i) :
    expectedStatus c.cw s = if missing (readsOf i) s = true then .uninit else .ok := by
  simp only [expectedStatus, running, cw_mem_of_decode decoded, missing_iff decoded]
  simp

/-- RDST is the one command served while halted (R115). -/
theorem cw_eq_rdst_iff (c : Command) : c.cw = 0x50 ↔ decode c = .ok .rdst := by
  constructor
  · intro h
    exact (decode_ok_iff _ _).mpr ⟨.rdst, h ▸ decodeWord_word .rdst, rfl⟩
  · exact fun h => word_of_decode h

theorem expectedStatus_of_unwritten {c : Command} {s : State} {i : Instr} (running : s.flt = false)
    (decoded : decode c = .ok i) (unwritten : missing (readsOf i) s = true) : expectedStatus c.cw s = .uninit := by
  rw [expectedStatus_of_decoded running decoded, if_pos unwritten]

theorem expectedStatus_of_halted {c : Command} {s : State} (halted : s.flt = true) :
    expectedStatus c.cw s = if decode c = .ok .rdst then .ok else .halted := by
  simp only [expectedStatus, halted, cw_eq_rdst_iff]
  simp

theorem expectedStatus_of_refused {c : Command} {s : State} (halted : s.flt = true)
    (notRdst : decode c ≠ .ok .rdst) : expectedStatus c.cw s = .halted := by
  rw [expectedStatus_of_halted halted, if_neg notRdst]

theorem expectedStatus_of_ready {c : Command} {s : State} {i : Instr} (decoded : decode c = .ok i)
    (ready : i = .rdst ∨ s.flt = false ∧ missing (readsOf i) s = false) : expectedStatus c.cw s = .ok := by
  cases hflt : s.flt with
  | true =>
    have hi : i = .rdst := ready.resolve_right fun h => by simp [hflt] at h
    rw [expectedStatus_of_halted hflt, if_pos (hi ▸ decoded)]
  | false =>
    have hready : missing (readsOf i) s = false := by
      obtain rfl | ⟨-, h⟩ := ready
      · rfl
      · exact h
    simp [expectedStatus_of_decoded hflt decoded, hready]

/-- Settles O10: each way a command can go is the branch of the order of checks that its flags and word select. -/
theorem commandChecksInOrder : Obligations.CommandChecksInOrder := by
  intro s c rest hhost
  obtain ⟨t, hst⟩ := step_next s
  refine ⟨t, ?_⟩
  cases commandStep_of_step hhost hst with
  | refused halted notRdst =>
    rw [expectedStatus_of_refused (s := s) halted notRdst]
    exact ⟨0, hst, rfl, rfl, rfl, fun _ => ⟨rfl, rfl, rfl, rfl, rfl⟩, fun _ => ⟨rfl, rfl⟩, nofun, nofun, nofun⟩
  | illegal why running reserved =>
    rw [expectedStatus_of_illegal (s := s) running reserved]
    exact ⟨0, hst, rfl, rfl, rfl, fun _ => ⟨rfl, rfl, rfl, rfl, rfl⟩, nofun,
      fun _ => ⟨rfl, raiseFault_cause_of_running .illegal running⟩, nofun, nofun⟩
  | uninit i running decoded unwritten =>
    rw [expectedStatus_of_unwritten (s := s) running decoded unwritten]
    exact ⟨0, hst, rfl, rfl, rfl, fun _ => ⟨rfl, rfl, rfl, rfl, rfl⟩, nofun, nofun,
      fun _ => ⟨rfl, raiseFault_cause_of_running .uninit running⟩, nofun⟩
  | executed i decoded ready =>
    obtain ⟨d, hd⟩ := effectOf_answers i { s with host := rest }
    rw [expectedStatus_of_ready (s := s) decoded ready]
    exact ⟨d, hst, effectOf_host i _, effectOf_resets i _, hd, absurd rfl, nofun, nofun, nofun,
      fun _ => ⟨i, decoded, exec_of_ready ready⟩⟩

/-- Settles O13: one code for each status. -/
theorem statusCodesAreTheFour : Obligations.StatusCodesAreTheFour :=
  ⟨rfl, rfl, rfl, rfl, fun st => by cases st <;> decide⟩

/-! ### Runs of encoded instructions (R53, R91) -/

/-- The effects of instructions one after another. -/
def effectsOf : List Instr → State → State
  | [], s => s
  | i :: is, s => effectsOf is (effectOf i s)

/-- Each instruction in turn finds the registers it reads written. -/
def AllReady : List Instr → State → Prop
  | [], _ => True
  | i :: is, s => missing (readsOf i) s = false ∧ AllReady is (effectOf i s)

@[simp] theorem effectsOf_flt (is : List Instr) (s : State) : (effectsOf is s).flt = s.flt := by
  induction is generalizing s with
  | nil => rfl
  | cons i is ih => exact (ih _).trans (effectOf_flt i s)

theorem effectsOf_withHost (is : List Instr) (s : State) (host : List HostEvent) :
    effectsOf is { s with host := host } = { effectsOf is s with host := host } := by
  induction is generalizing s with
  | nil => rfl
  | cons i is ih => simp only [effectsOf, effectOf_withHost, ih]

theorem allReady_withHost (is : List Instr) (s : State) (host : List HostEvent) :
    AllReady is { s with host := host } ↔ AllReady is s := by
  induction is generalizing s with
  | nil => rfl
  | cons i is ih => simp only [AllReady, effectOf_withHost, ih, missing]

/-- A core without a fault, presented encoded instructions whose registers are written when they come, runs their effects
one after another. -/
theorem run_encoded {is : List Instr} {s : State} {rest : List HostEvent} (hflt : s.flt = false)
    (hhost : s.host = presenting (is.map encode) ++ rest) (hready : AllReady is s) :
    Host.Core.run Sys2Proof.core (is.map encode).length s = .next { effectsOf is s with host := rest } := by
  induction is generalizing s with
  | nil =>
    have : s.host = rest := hhost
    rw [← this]
    rfl
  | cons i is ih =>
    obtain ⟨hi, his⟩ := hready
    have hstep : step s = .next { effectOf i s with host := presenting (is.map encode) ++ rest } :=
      (step_of_decoded hhost (decode_encode i)).trans
        ((exec_of_ready (s := { s with host := presenting (is.map encode) ++ rest }) (.inr ⟨hflt, hi⟩)).trans
          (congrArg _ (effectOf_withHost i s _)))
    have hrun := ih (s := { effectOf i s with host := presenting (is.map encode) ++ rest })
      ((effectOf_flt i s).trans hflt) rfl ((allReady_withHost ..).mpr his)
    rw [effectsOf_withHost] at hrun
    exact (run_succ_of_step _ hstep).trans hrun

/-- Settles O53: the effects of the six instructions compose to `Encrypt1`. -/
theorem enc1AnswersEncrypt1 : Obligations.Enc1AnswersEncrypt1 := by
  intro s pt k0 k1 cs rest hflt hasm hhost
  cases (assemble_of_expandLine rfl).symm.trans hasm
  refine ⟨_, run_encoded hflt hhost ?_, ?_, rfl, hflt⟩
  · simp [AllReady, readsOf, effectOf]
  · simp [effectsOf, effectOf, encrypt1, List.replicate]

/-- Settles O54: as ENC1, with the second key derived in place. -/
theorem enc1kAnswersEncrypt1AndTheDerivedKey : Obligations.Enc1kAnswersEncrypt1AndTheDerivedKey := by
  intro s pt k0 cs rest hflt hasm hhost
  cases (assemble_of_expandLine rfl).symm.trans hasm
  refine ⟨_, run_encoded hflt hhost ?_, ?_, rfl, hflt⟩
  · simp [AllReady, readsOf, effectOf]
  · simp [effectsOf, effectOf, encrypt1, List.replicate]

end Sys2Proof.Machine

/-! ## The statements of the transfer family (40_transfer.md) -/

namespace Sys2Proof

/-! ### The mappings undo each other (R56 to R58) -/

@[simp] theorem stateToBlock_blockToState (b : Block) : stateToBlock (blockToState b) = b :=
  block_ext_byte fun k => by
    rw [byteOfBlock_stateToBlock, blockToState_cell, byteIndex_group_place]

@[simp] theorem blockToState_stateToBlock (s : AesState) : blockToState (stateToBlock s) = s :=
  AesState.ext_cell fun r c => by
    rw [blockToState_cell, byteOfBlock_stateToBlock, placeOf_byteIndex, groupOf_byteIndex]

@[simp] theorem wordsToBlock_blockToWords (b : Block) : wordsToBlock (blockToWords b) = b :=
  block_ext_byte fun k => by
    rw [byteOfBlock_wordsToBlock, blockToWords_byte, byteIndex_group_place]

@[simp] theorem blockToWords_wordsToBlock (k : RoundKey) : blockToWords (wordsToBlock k) = k :=
  RoundKey.ext_byte fun i j => by
    rw [blockToWords_byte, byteOfBlock_wordsToBlock, groupOf_byteIndex, placeOf_byteIndex]

/-- Word i of a key Block is column i of the Block's State (R58). -/
theorem blockToWords_byte_eq_cell (b : Block) (i j : Fin 4) :
    ((blockToWords b).word i).byte j = (blockToState b).cell j i := by
  rw [blockToWords_byte, blockToState_cell]

/-- Settles O24: the slices of the statement are the bytes of the Block, and the mappings undo each other byte by byte. -/
theorem blockStateMapping : Obligations.BlockStateMapping :=
  ⟨blockToState_cell, byteOfBlock_stateToBlock, stateToBlock_blockToState, blockToState_stateToBlock⟩

/-- Settles O25: as O24, with the Words for the columns. -/
theorem blockWordsMapping : Obligations.BlockWordsMapping :=
  ⟨blockToWords_byte, byteOfBlock_wordsToBlock, wordsToBlock_blockToWords, blockToWords_wordsToBlock,
    blockToWords_byte_eq_cell, by decide⟩

end Sys2Proof

namespace Sys2Proof.Machine

/-! ### The three ways an instruction can answer (R48) -/

/-- Every instruction but RDST is refused while halted (R115). -/
theorem refusedHalted_of_halted {i : Instr} {s : State} (hi : i ≠ .rdst) (halted : s.flt = true) :
    RefusedHalted i s := by
  have hx : exec i s = .next (refuseHalted s) := by rw [exec_of_ne_rdst i s hi, runCommand_halted halted]
  exact ⟨_, hx, rfl, ⟨rfl, rfl, rfl, rfl⟩, ⟨rfl, rfl⟩, rfl, rfl⟩

/-- An instruction that reads an unwritten register faults (R112, R114). -/
theorem faultsUninit_of_missing {i : Instr} {s : State} (running : s.flt = false)
    (unwritten : missing (readsOf i) s = true) : FaultsUninit i s := by
  have hi : i ≠ .rdst := by
    rintro rfl
    cases unwritten
  have hx : exec i s = .next (raiseFault .uninit s) := by
    rw [exec_of_ne_rdst i s hi, runCommand_missing running unwritten]
  exact ⟨_, hx, rfl, ⟨rfl, rfl, rfl, rfl⟩, rfl, raiseFault_cause_of_running .uninit running, rfl, rfl⟩

/-- An instruction whose effect is only a response writes nothing. -/
theorem onlyAnswers_of_respond {i : Instr} {s : State} {d : Block}
    (ready : i = .rdst ∨ s.flt = false ∧ missing (readsOf i) s = false) (heffect : effectOf i s = respond .ok d s) :
    OnlyAnswers i s d :=
  ⟨_, (exec_of_ready ready).trans (congrArg _ heffect), rfl, ⟨rfl, rfl, rfl, rfl⟩, ⟨rfl, rfl⟩, rfl, rfl⟩

/-! ### Loading (R60, R61) -/

theorem exec_lds_of_running {s : State} (b : Block) (running : s.flt = false) :
    exec (.lds b) s = .next (respond .ok 0 (loadS (blockToState b) s)) :=
  exec_of_ready (.inr ⟨running, rfl⟩)

theorem exec_ldk_of_running {s : State} (b : Block) (running : s.flt = false) :
    exec (.ldk b) s = .next (respond .ok 0 (loadK (blockToWords b) s)) :=
  exec_of_ready (.inr ⟨running, rfl⟩)

/-- Settles O26: the State loaded is the Block's, cell by cell, and `loadS` leaves the other fields. -/
theorem ldsLoadsTheState : Obligations.LdsLoadsTheState := by
  refine fun din s => ⟨decode_word .lds din, fun running => ?_, refusedHalted_of_halted nofun, ?_⟩
  · exact ⟨_, exec_lds_of_running din running, blockToState_cell din, rfl, rfl, rfl, ⟨rfl, rfl⟩, ⟨rfl, rfl⟩, rfl⟩
  · decide

/-- Settles O27: the Words loaded are the Block's, byte by byte, and `loadK` leaves the other fields. -/
theorem ldkLoadsTheKey : Obligations.LdkLoadsTheKey := by
  refine fun din s => ⟨decode_word .ldk din, fun running => ?_, refusedHalted_of_halted nofun, ?_⟩
  · exact ⟨_, exec_ldk_of_running din running, blockToWords_byte din, rfl, rfl, rfl, ⟨rfl, rfl⟩, ⟨rfl, rfl⟩, rfl⟩
  · decide

/-! ### Reading (R62, R63) -/

theorem onlyAnswers_rds {s : State} (running : s.flt = false) (written : s.sv = true) :
    OnlyAnswers .rds s (stateToBlock s.regS) :=
  onlyAnswers_of_respond (.inr ⟨running, by simp [readsOf, written]⟩) rfl

theorem onlyAnswers_rdk {s : State} (running : s.flt = false) (written : s.kv = true) :
    OnlyAnswers .rdk s (wordsToBlock s.regK) :=
  onlyAnswers_of_respond (.inr ⟨running, by simp [readsOf, written]⟩) rfl

/-- Settles O28: the Block answered has the cells of `S` for its bytes. -/
theorem rdsReturnsTheState : Obligations.RdsReturnsTheState := by
  refine fun din s => ⟨decode_word .rds din, fun running written => ⟨_, onlyAnswers_rds running written, ?_⟩,
    fun running unwritten => ?_, refusedHalted_of_halted nofun, stateToBlock_blockToState _⟩
  · intro r c
    rw [byteOfBlock_stateToBlock, placeOf_byteIndex, groupOf_byteIndex]
  · exact faultsUninit_of_missing running (by simp [readsOf, unwritten])

/-- Settles O29: the Block answered has the bytes of the Words of `K` for its bytes. -/
theorem rdkReturnsTheKey : Obligations.RdkReturnsTheKey := by
  refine fun din s => ⟨decode_word .rdk din, fun running written => ⟨_, onlyAnswers_rdk running written, ?_⟩,
    fun running unwritten => ?_, refusedHalted_of_halted nofun, by decide⟩
  · intro i j
    rw [byteOfBlock_wordsToBlock, groupOf_byteIndex, placeOf_byteIndex]
  · exact faultsUninit_of_missing running (by simp [readsOf, unwritten])

/-- Settles O31: the load writes the register and its valid flag, so the read answers with the Block of what the load
took from it. -/
theorem loadThenReadReturnsTheBlock : Obligations.LoadThenReadReturnsTheBlock := by
  intro b s running
  constructor
  · obtain ⟨u, hread, hanswers, -⟩ :=
      onlyAnswers_rds (s := respond .ok 0 (loadS (blockToState b) s)) running rfl
    rw [respond_regS, loadS_regS, stateToBlock_blockToState] at hanswers
    exact ⟨_, u, exec_lds_of_running b running, hread, hanswers⟩
  · obtain ⟨u, hread, hanswers, -⟩ :=
      onlyAnswers_rdk (s := respond .ok 0 (loadK (blockToWords b) s)) running rfl
    rw [respond_regK, loadK_regK, wordsToBlock_blockToWords] at hanswers
    exact ⟨_, u, exec_ldk_of_running b running, hread, hanswers⟩

/-! ### STATUS (R17, R66) -/

/-- A zero-extended Byte keeps its eight bits and has none above them. -/
theorem getLsbD_zext128 (x : Byte) (n : Nat) : (zext128 x).getLsbD n = x.getLsbD n := by
  by_cases hn : n < 128
  · simp [zext128, hn]
  · have high : 8 ≤ n := by omega
    simp [zext128, hn, BitVec.getLsbD_of_ge x n high]

/-- The fields that STATUS puts together, bit by bit from bit 0 (R17). -/
theorem getLsbD_statusFields (cause : BitVec 3) (flt kv sv : Bool) (n : Nat) :
    (0#1 ++ cause ++ 0#1 ++ BitVec.ofBool flt ++ BitVec.ofBool kv ++ BitVec.ofBool sv).getLsbD n =
      [sv, kv, flt, false, cause.getLsbD 0, cause.getLsbD 1, cause.getLsbD 2].getD n false := by
  simp only [BitVec.getLsbD_append]
  match n with
  | 0 | 1 | 2 | 3 | 4 | 5 | 6 => simp
  | n + 7 => simp

theorem getLsbD_statusView (s : State) (n : Nat) :
    (statusView s).getLsbD n =
      [s.sv, s.kv, s.flt, false, s.cause.getLsbD 0, s.cause.getLsbD 1, s.cause.getLsbD 2].getD n false :=
  getLsbD_statusFields s.cause s.flt s.kv s.sv n

/-- Settles O30: RDST runs in every state, and its answer has the bits of STATUS. -/
theorem rdstReturnsTheStatus : Obligations.RdstReturnsTheStatus := by
  intro din s
  have bit (n : Nat) := (getLsbD_zext128 (statusView s) n).trans (getLsbD_statusView s n)
  refine ⟨decode_word .rdst din, _, onlyAnswers_of_respond (.inl rfl) rfl, bit 0, bit 1, bit 2, bit 3, bit 4, bit 5,
    bit 6, fun n hn => ?_, ?_, ?_, ?_, ?_⟩
  · exact (bit n).trans (List.getD_eq_default _ _ hn)
  all_goals
    intro hsv hkv hflt hcause
    rw [statusView, hsv, hkv, hflt, hcause]
    decide

end Sys2Proof.Machine

/-! ## The statements of the S-box family (41_sbox.md) -/

namespace Sys2Proof

/-! ### The S-box is a bijection (R71 to R73) -/

/-- The inverse of the affine map of R73. -/
def sboxAffineInverse (y : Byte) : Byte := y.rotateLeft 1 ^^^ y.rotateLeft 3 ^^^ y.rotateLeft 6 ^^^ 0x05

@[simp] theorem sboxAffine_sboxAffineInverse : ∀ y : Byte, sboxAffine (sboxAffineInverse y) = y := by decide

/-- The table without its affine map is the inverse in the field (R73), so doing it twice gives the Byte back. -/
theorem sboxAffineInverse_comp_lookup_involutive : Function.Involutive (sboxAffineInverse ∘ lookup) := by
  unfold Function.Involutive
  decide

theorem lookup_injective : Function.Injective lookup :=
  sboxAffineInverse_comp_lookup_involutive.injective.of_comp

theorem lookup_surjective : Function.Surjective lookup :=
  Finite.surjective_of_injective lookup_injective

/-- No fixed point in the table of R71. -/
theorem lookup_ne_self : ∀ x : Byte, lookup x ≠ x := by decide

/-- No opposite fixed point in the table of R71. -/
theorem lookup_ne_complement : ∀ x : Byte, lookup x ≠ x ^^^ 0xFF := by decide

/-- Settles O32: injective because the involution under the affine map is, surjective because Bytes are finitely many. -/
theorem sboxIsBijective : Obligations.SboxIsBijective :=
  ⟨lookup_injective, lookup_surjective, rfl, rfl, rfl, lookup_ne_self, lookup_ne_complement⟩

/-- The one Byte the S-box maps to zero (R74). -/
theorem lookup_eq_zero_iff (x : Byte) : lookup x = 0x00 ↔ x = 0x52 :=
  lookup_injective.eq_iff' rfl

end Sys2Proof

namespace Sys2Proof.Machine

/-- Settles O34: SBOX reads no register, so without a fault it always runs, and its effect is only the response. -/
theorem sboxAnswersTheLookup : Obligations.SboxAnswersTheLookup := fun din x _ =>
  ⟨decode_word .sbox din, fun running => onlyAnswers_of_respond (.inr ⟨running, rfl⟩) rfl,
    refusedHalted_of_halted nofun, rfl, rfl, lookup_eq_zero_iff x⟩

end Sys2Proof.Machine

/-! ## The statements of the multiplier family (42_gfmul.md) -/

namespace Sys2Proof

/-! ### `xtime` as a number and bit by bit (R76) -/

/-- Bit n is bit n - 1 of the operand, and the top bit folded back where the reduction constant has a 1. -/
theorem getLsbD_xtime (a : Byte) {n : Nat} (hn : n < 8) :
    (xtime a).getLsbD n =
      ((decide (0 < n) && a.getLsbD (n - 1)) ^^ (a.getLsbD 7 && reductionConstant.getLsbD n)) := by
  have top : a.msb = a.getLsbD 7 := BitVec.msb_eq_getLsbD_last a
  have positive : (!decide (n < 1)) = decide (0 < n) := by simp [Nat.pos_iff_ne_zero]
  have shifted : (a <<< 1).getLsbD n = (decide (0 < n) && a.getLsbD (n - 1)) := by
    rw [BitVec.getLsbD_shiftLeft, decide_eq_true hn, Bool.true_and, positive]
  unfold xtime
  split
  next h => rw [BitVec.getLsbD_xor, shifted, ← top, h, Bool.true_and]
  next h => rw [shifted, ← top, Bool.eq_false_of_not_eq_true h, Bool.false_and, Bool.xor_false]

theorem toNat_xtime (a : Byte) :
    (xtime a).toNat = if 128 ≤ a.toNat then (2 * a.toNat % 256) ^^^ 0x1B else 2 * a.toNat % 256 := by
  have top : a.msb = true ↔ 128 ≤ a.toNat := BitVec.msb_eq_true_iff_two_mul_ge.trans (by omega)
  have shifted : (a <<< 1).toNat = 2 * a.toNat % 256 := by
    rw [BitVec.toNat_shiftLeft, Nat.shiftLeft_eq, Nat.mul_comm]
  simp only [xtime, top]
  split
  · rw [BitVec.toNat_xor, shifted]; rfl
  · exact shifted

/-- Settles O35: the shift doubles, its carry is the top bit, and each bit is the general one at its place. -/
theorem xtimeShiftsAndReduces : Obligations.XtimeShiftsAndReduces := by
  intro a
  refine ⟨toNat_xtime a, ?_, ?_, ?_, ?_, ?_, ?_, ?_, ?_⟩
  all_goals
    rw [getLsbD_xtime a (by decide)]
    simp [reductionConstant]

/-- Settles O36: the values of each multiplier. -/
theorem gfMulByOneTwoThree : Obligations.GfMulByOneTwoThree :=
  ⟨fun a => ⟨gfMul_one a, gfMul_two a, gfMul_three a⟩, rfl, rfl, rfl⟩

/-! ### Each multiplication is linear with kernel zero, so a bijection (R82) -/

theorem gfMul_xor (x y : Byte) (b : Multiplier) : gfMul (x ^^^ y) b = gfMul x b ^^^ gfMul y b := by
  cases b with
  | one => rfl
  | two => exact xtime_xor x y
  | three =>
    rw [gfMul_three, gfMul_three, gfMul_three, xtime_xor]
    ac_rfl

@[simp] theorem zero_gfMul (b : Multiplier) : gfMul 0 b = 0 := by cases b <;> rfl

/-- No multiplier maps another Byte to zero: for 2 and 3, checked on each of the 256 Bytes. -/
theorem eq_zero_of_gfMul_eq_zero {b : Multiplier} {x : Byte} (h : gfMul x b = 0) : x = 0 := by
  cases b with
  | one => exact h
  | two => revert x; decide
  | three => revert x; decide

theorem gfMul_injective (b : Multiplier) : Function.Injective (gfMul · b) := by
  intro x y h
  have hzero : gfMul (x ^^^ y) b = 0 := (gfMul_xor x y b).trans (BitVec.xor_eq_zero_iff.mpr h)
  exact BitVec.xor_eq_zero_iff.mp (eq_zero_of_gfMul_eq_zero hzero)

theorem gfMul_surjective (b : Multiplier) : Function.Surjective (gfMul · b) :=
  Finite.surjective_of_injective (gfMul_injective b)

/-- Settles O37: a linear map with kernel zero is injective, and surjective because Bytes are finitely many. -/
theorem gfMulIsLinearAndBijective : Obligations.GfMulIsLinearAndBijective := fun b =>
  ⟨zero_gfMul b, fun x y => gfMul_xor x y b, fun _ _ h => gfMul_injective b h, gfMul_surjective b⟩

end Sys2Proof

namespace Sys2Proof.Machine

/-- The words of the nibble 7 below GFMUL 1 and above GFMUL 3 are outside the map (R49, R81). -/
theorem gfmulNeighbours_notMem_legalWords :
    0x70#8 ∉ legalWords ∧ ∀ n : Fin 12, 0x74 + BitVec.ofNat 8 n.val ∉ legalWords := by decide

/-- Settles O38: GFMUL reads no register, so without a fault it always runs, and its effect is only the response. -/
theorem gfmulAnswersTheProduct : Obligations.GfmulAnswersTheProduct := by
  intro din a s
  obtain ⟨below, above⟩ := gfmulNeighbours_notMem_legalWords
  refine ⟨decode_word .gfmul1 din, decode_word .gfmul2 din, decode_word .gfmul3 din, decode_of_reserved below,
    fun n => decode_of_reserved (above n), fun running => ⟨?_, ?_, ?_⟩, fun halted => ⟨?_, ?_, ?_⟩, by decide⟩
  · exact onlyAnswers_of_respond (.inr ⟨running, rfl⟩) rfl
  · exact onlyAnswers_of_respond (.inr ⟨running, rfl⟩) rfl
  · exact onlyAnswers_of_respond (.inr ⟨running, rfl⟩) rfl
  all_goals exact refusedHalted_of_halted nofun halted

end Sys2Proof.Machine

/-! ## The statements of the round family (43_round.md) -/

namespace Sys2Proof

/-! ### AddRoundKey (R85, R92) -/

theorem byteOfBlock_xor (k : Fin 16) (a b : Block) : byteOfBlock k (a ^^^ b) = byteOfBlock k a ^^^ byteOfBlock k b :=
  BitVec.extractLsb'_xor

@[simp] theorem byteOfBlock_zero (k : Fin 16) : byteOfBlock k 0 = 0#8 := BitVec.extractLsb'_zero

theorem stateToBlock_addRoundKey (s k : AesState) :
    stateToBlock (addRoundKey s k) = stateToBlock s ^^^ stateToBlock k :=
  block_ext_byte fun n => by
    simp only [byteOfBlock_xor, byteOfBlock_stateToBlock, addRoundKey_cell]

theorem addRoundKey_addRoundKey (s k : AesState) : addRoundKey (addRoundKey s k) k = s :=
  AesState.ext_cell fun r c => by
    rw [addRoundKey_cell, addRoundKey_cell, BitVec.xor_assoc, BitVec.xor_self, BitVec.xor_zero]

theorem addRoundKey_keyState_zero (s : AesState) : addRoundKey s (keyState (blockToWords 0)) = s :=
  AesState.ext_cell fun r c => by
    rw [addRoundKey_cell, keyState_cell, blockToWords_byte, byteOfBlock_zero, BitVec.xor_zero]

/-- Settles O39: the byte of a Block is a slice of it, and slicing distributes over XOR. -/
theorem addRoundKeyIsBlockXor : Obligations.AddRoundKeyIsBlockXor :=
  fun s k => ⟨addRoundKey_cell s k, stateToBlock_addRoundKey s k⟩

/-! ### ShiftRows (R87, R92) -/

/-- The byte that byte k comes from is in the same row, as many columns on as the number of the row. -/
theorem row_and_column_of_shifted {j k : Fin 16} (hj : j.val = (k.val + 4 * (k.val % 4)) % 16) :
    placeOf j = placeOf k ∧ groupOf j = groupOf k + placeOf k := by
  constructor <;> apply Fin.ext
  · change j.val % 4 = k.val % 4
    omega
  · calc j.val / 4
      _ = (k.val + 4 * (k.val % 4)) % (4 * 4) / 4 := by rw [hj]
      _ = (k.val + 4 * (k.val % 4)) / 4 % 4 := Nat.mod_mul_right_div_self ..
      _ = (k.val / 4 + k.val % 4) % 4 := by rw [Nat.add_mul_div_left _ _ (by decide)]

/-- Settles O40: each byte of the Block is a cell, and ShiftRows takes the cell from the same row. -/
theorem shiftRowsPermutesTheBytes : Obligations.ShiftRowsPermutesTheBytes := by
  refine fun s => ⟨shiftRows_cell s, fun k => ?_⟩
  obtain ⟨row, column⟩ := row_and_column_of_shifted (j := ⟨_, _⟩) (k := k) rfl
  rw [byteOfBlock_stateToBlock, byteOfBlock_stateToBlock, shiftRows_cell, row, column]

/-- Four rotations by r go around the row. -/
theorem shiftRows_four_times (s : AesState) : shiftRows (shiftRows (shiftRows (shiftRows s))) = s :=
  AesState.ext_cell fun r c => by
    have around : c + r + r + r + r = c := by
      apply Fin.ext
      simp only [Fin.val_add]
      omega
    simp only [shiftRows_cell, around]

theorem shiftRows_of_equal_columns {s : AesState} (h : ∀ c, s.column c = s.column 0) : shiftRows s = s :=
  AesState.ext_cell fun r c => by
    rw [shiftRows_cell, AesState.cell, AesState.cell, h (c + r), h c]

theorem shiftRows_subBytes (s : AesState) : shiftRows (subBytes s) = subBytes (shiftRows s) :=
  AesState.ext_cell fun r c => by
    simp only [shiftRows_cell, subBytes_cell]

/-! ### MixColumns (R88, R89, R92) -/

theorem mixColumns_cell (s : AesState) (r c : Fin 4) :
    (mixColumns s).cell r c = (mixColumn (s.column c)).byte r :=
  congrArg (·.byte r) (mixColumns_column s c)

/-- Settles O41: the four rows of the matrix, applied to the column. -/
theorem mixColumnsMultipliesEachColumn : Obligations.MixColumnsMultipliesEachColumn :=
  fun s c => ⟨mixColumns_cell s 0 c, mixColumns_cell s 1 c, mixColumns_cell s 2 c, mixColumns_cell s 3 c⟩

theorem mixColumn_wordXor (u v : Word) : mixColumn (wordXor u v) = wordXor (mixColumn u) (mixColumn v) := by
  apply Word.ext
  all_goals
    simp only [mixColumn, wordXor, gfMul_xor]
    ac_rfl

/-- In every row of the matrix the factors 2, 3, 1 and 1 add up to 1. -/
theorem mixColumn_of_equal_bytes (v : Byte) : mixColumn ⟨v, v, v, v⟩ = ⟨v, v, v, v⟩ := by
  have rowSum : xtime v ^^^ xtime v ^^^ (v ^^^ v) ^^^ v = v := by simp
  apply Word.ext
  all_goals
    refine Eq.trans ?_ rowSum
    simp only [mixColumn, gfMul_one, gfMul_two, gfMul_three]
    ac_rfl

/-- Settles O42: one property of each stage at a time. -/
theorem stageProperties : Obligations.StageProperties :=
  ⟨addRoundKey_addRoundKey, shiftRows_four_times, mixColumn_wordXor, mixColumn_of_equal_bytes, shiftRows_subBytes⟩

end Sys2Proof

namespace Sys2Proof.Machine

/-! ### What each command of the round does when its registers are written (R93 to R98) -/

theorem missing_both_of_unwritten {s : State} (h : s.sv = false ∨ s.kv = false) : missing readsBoth s = true := by
  simpa using h

theorem writesOnlyS_writeS (v : AesState) (s : State) : WritesOnlyS s (respond .ok 0 (writeS v s)) :=
  ⟨rfl, rfl, rfl, ⟨rfl, rfl⟩, ⟨rfl, rfl⟩, rfl⟩

section Written

variable {s : State}

theorem exec_ark_of_written (running : s.flt = false) (hsv : s.sv = true) (hkv : s.kv = true) :
    exec .ark s = .next (respond .ok 0 (writeS (addRoundKey s.regS (keyState s.regK)) s)) :=
  exec_of_ready (.inr ⟨running, by simp [readsOf, hsv, hkv]⟩)

theorem exec_sub_of_written (running : s.flt = false) (hsv : s.sv = true) :
    exec .sub s = .next (respond .ok 0 (writeS (subBytes s.regS) s)) :=
  exec_of_ready (.inr ⟨running, by simp [readsOf, hsv]⟩)

theorem exec_shr_of_written (running : s.flt = false) (hsv : s.sv = true) :
    exec .shr s = .next (respond .ok 0 (writeS (shiftRows s.regS) s)) :=
  exec_of_ready (.inr ⟨running, by simp [readsOf, hsv]⟩)

theorem exec_mix_of_written (running : s.flt = false) (hsv : s.sv = true) :
    exec .mix s = .next (respond .ok 0 (writeS (mixColumns s.regS) s)) :=
  exec_of_ready (.inr ⟨running, by simp [readsOf, hsv]⟩)

theorem exec_round_of_written (running : s.flt = false) (hsv : s.sv = true) (hkv : s.kv = true) :
    exec .round s = .next (respond .ok 0 (writeS (roundFunction s.regS (keyState s.regK)) s)) :=
  exec_of_ready (.inr ⟨running, by simp [readsOf, hsv, hkv]⟩)

end Written

/-- Settles O43: the second ARK finds the same K, and AddRoundKey undoes itself. -/
theorem arkAddsTheRoundKey : Obligations.ArkAddsTheRoundKey := by
  refine fun din s => ⟨decode_word .ark din, fun running hsv hkv => ?_,
    fun running unwritten => faultsUninit_of_missing running (missing_both_of_unwritten unwritten),
    refusedHalted_of_halted nofun, by decide⟩
  refine ⟨_, exec_ark_of_written running hsv hkv, fun r c => ?_, writesOnlyS_writeS _ s, fun zeroKey => ?_,
    _, exec_ark_of_written running hsv hkv, addRoundKey_addRoundKey _ _⟩
  · exact (addRoundKey_cell _ _ r c).trans (congrArg _ (keyState_cell _ r c))
  · rw [zeroKey]
    exact addRoundKey_keyState_zero _

/-- Settles O44: the table has no fixed point, and its first entry is 0x63. -/
theorem subSubstitutesEveryByte : Obligations.SubSubstitutesEveryByte := by
  refine fun din s => ⟨decode_word .sub din, fun running hsv => ?_,
    fun running unwritten => faultsUninit_of_missing running (by simp [readsOf, unwritten]),
    refusedHalted_of_halted nofun, by decide⟩
  have cell := subBytes_cell s.regS
  refine ⟨_, exec_sub_of_written running hsv, cell, writesOnlyS_writeS _ s, fun r c => ?_, fun zero r c => ?_⟩
  · exact (cell r c).trans_ne (lookup_ne_self _)
  · exact (cell r c).trans (congrArg lookup (zero r c))

/-- Settles O45: each of the three further SHR finds `S` written and the core without a fault, as the first did. -/
theorem shrRotatesTheRows : Obligations.ShrRotatesTheRows := by
  refine fun din s => ⟨decode_word .shr din, fun running hsv => ?_,
    fun running unwritten => faultsUninit_of_missing running (by simp [readsOf, unwritten]),
    refusedHalted_of_halted nofun, by decide⟩
  exact ⟨_, exec_shr_of_written running hsv, shiftRows_cell s.regS, writesOnlyS_writeS _ s,
    shiftRows_of_equal_columns, _, _, _, exec_shr_of_written running hsv, exec_shr_of_written running hsv,
    exec_shr_of_written running hsv, shiftRows_four_times s.regS⟩

/-- Settles O46: column by column. -/
theorem mixMultipliesTheColumns : Obligations.MixMultipliesTheColumns := fun din s =>
  ⟨decode_word .mix din,
    fun running hsv => ⟨_, exec_mix_of_written running hsv, mixColumns_column s.regS, writesOnlyS_writeS _ s⟩,
    fun running unwritten => faultsUninit_of_missing running (by simp [readsOf, unwritten]),
    refusedHalted_of_halted nofun, mixColumn_of_equal_bytes, by decide, by decide⟩

/-- Settles O47: `Round` is the four stages composed. -/
theorem roundRunsTheFourStages : Obligations.RoundRunsTheFourStages := fun din s =>
  ⟨decode_word .round din,
    fun running hsv hkv => ⟨_, exec_round_of_written running hsv hkv, rfl, writesOnlyS_writeS _ s⟩,
    fun running unwritten => faultsUninit_of_missing running (missing_both_of_unwritten unwritten),
    refusedHalted_of_halted nofun, by decide⟩

/-- Settles O48: each of the four commands writes `S` alone, so the next finds the flags and `K` as they were. -/
theorem roundEqualsItsFourCommands : Obligations.RoundEqualsItsFourCommands := fun _ running hsv hkv =>
  ⟨_, _, _, _, _, exec_round_of_written running hsv hkv, exec_sub_of_written running hsv,
    exec_shr_of_written running hsv, exec_mix_of_written running hsv, exec_ark_of_written running hsv hkv,
    ⟨rfl, rfl, rfl, rfl⟩, ⟨rfl, rfl⟩, rfl, rfl⟩

end Sys2Proof.Machine

/-! ## The statements of the key-schedule family (44_keyschedule.md) -/

namespace Sys2Proof

/-! ### XOR of Words cancels (R105) -/

theorem wordXor_cancel_left (u v : Word) : wordXor u (wordXor u v) = v :=
  Word.ext_byte fun j => by
    rw [wordXor_byte, wordXor_byte, ← BitVec.xor_assoc, BitVec.xor_self, BitVec.zero_xor]

theorem wordXor_cancel_right (u v : Word) : wordXor (wordXor u v) v = u :=
  Word.ext_byte fun j => by
    rw [wordXor_byte, wordXor_byte, BitVec.xor_assoc, BitVec.xor_self, BitVec.xor_zero]

/-! ### The chain (R104 to R107) -/

/-- Rcon changes the first byte alone (R103, R104). -/
theorem keyG_eq (w : Word) : keyG w = ⟨lookup w.b1 ^^^ 0x01, lookup w.b2, lookup w.b3, lookup w.b0⟩ :=
  Word.ext rfl BitVec.xor_zero BitVec.xor_zero BitVec.xor_zero

theorem keyExpandStep_w0 (k : RoundKey) : (keyExpandStep k).w0 = wordXor k.w0 (keyG k.w3) := rfl

theorem keyExpandStep_w1 (k : RoundKey) : (keyExpandStep k).w1 = wordXor (keyExpandStep k).w0 k.w1 := rfl

theorem keyExpandStep_w2 (k : RoundKey) : (keyExpandStep k).w2 = wordXor (keyExpandStep k).w1 k.w2 := rfl

theorem keyExpandStep_w3 (k : RoundKey) : (keyExpandStep k).w3 = wordXor (keyExpandStep k).w2 k.w3 := rfl

/-- The chain written out down to the input words (R105). -/
theorem keyExpandStep_w3_byte (k : RoundKey) (j : Fin 4) :
    (keyExpandStep k).w3.byte j =
      k.w0.byte j ^^^ k.w1.byte j ^^^ k.w2.byte j ^^^ k.w3.byte j ^^^ (keyG k.w3).byte j := by
  rw [keyExpandStep_w3, keyExpandStep_w2, keyExpandStep_w1, keyExpandStep_w0]
  simp only [wordXor_byte]
  ac_rfl

/-- Settles O49: `g` byte by byte, each word from the one before it, and the last one written out. -/
theorem keyStepChainsTheWords : Obligations.KeyStepChainsTheWords := fun k =>
  ⟨keyG_eq k.w3, keyExpandStep_w0 k, keyExpandStep_w1 k, keyExpandStep_w2 k, keyExpandStep_w3 k,
    keyExpandStep_w3_byte k⟩

/-! ### The step has an inverse (R108) -/

/-- The round key before a step, from the one after it: neighbouring words give back w1 to w3, and w3 gives `g`. -/
def keyStepInverse (l : RoundKey) : RoundKey :=
  ⟨wordXor l.w0 (keyG (wordXor l.w2 l.w3)), wordXor l.w0 l.w1, wordXor l.w1 l.w2, wordXor l.w2 l.w3⟩

theorem keyStepInverse_leftInverse : Function.LeftInverse keyStepInverse keyExpandStep := fun k => by
  apply RoundKey.ext <;> simp only [keyStepInverse, keyExpandStep, wordXor_cancel_left, wordXor_cancel_right]

theorem keyStepInverse_rightInverse : Function.RightInverse keyStepInverse keyExpandStep := fun l => by
  apply RoundKey.ext <;> simp only [keyStepInverse, keyExpandStep, wordXor_cancel_left, wordXor_cancel_right]

/-- Settles O50: the step has an inverse on both sides. -/
theorem keyStepIsBijective : Obligations.KeyStepIsBijective :=
  ⟨fun _ _ h => keyStepInverse_leftInverse.injective h, keyStepInverse_rightInverse.surjective⟩

/-- Settles O52: the two Blocks differ in bytes 0, 4, 8 and 12, which the second Rcon would have changed. -/
theorem secondKexpIsNotRoundKeyTwo : Obligations.SecondKexpIsNotRoundKeyTwo := by
  unfold Obligations.SecondKexpIsNotRoundKeyTwo
  have twoSteps : wordsToBlock (keyExpandStep (keyExpandStep (blockToWords 0x000102030405060708090a0b0c0d0e0f))) =
      0xb592cf0b673dbdf1bd9bc5006b30b3fe := by decide
  rw [twoSteps]
  exact ⟨rfl, by decide⟩

end Sys2Proof

namespace Sys2Proof.Machine

/-- With `K` written, KEXP replaces it by the next round key, whatever SV (R108). -/
theorem exec_kexp_of_written {s : State} (running : s.flt = false) (hkv : s.kv = true) :
    exec .kexp s = .next (respond .ok 0 (writeK (keyExpandStep s.regK) s)) :=
  exec_of_ready (.inr ⟨running, by simp [readsOf, hkv]⟩)

/-- Settles O51: the command writes `K` alone, and the words are those of the step. -/
theorem kexpExpandsTheKeyInPlace : Obligations.KexpExpandsTheKeyInPlace := by
  refine fun din s => ⟨decode_word .kexp din, fun running hkv => ?_,
    fun running unwritten => faultsUninit_of_missing running (by simp [readsOf, unwritten]),
    refusedHalted_of_halted nofun, by decide, by decide⟩
  exact ⟨_, exec_kexp_of_written running hkv, keyExpandStep_w0 s.regK, keyExpandStep_w1 s.regK,
    keyExpandStep_w2 s.regK, keyExpandStep_w3 s.regK, rfl, rfl, rfl, ⟨rfl, rfl⟩, ⟨rfl, rfl⟩, rfl⟩

end Sys2Proof.Machine

/-! ## The statements of the exceptions family (60_exceptions.md) -/

namespace Sys2Proof.Machine

/-! ### The halted core (R115) -/

/-- A reserved word presented to the halted core is refused like any other. -/
theorem reservedWord_of_halted {s : State} (halted : s.flt = true) : reservedWord s = refuseHalted s := by
  simp [reservedWord, halted]

/-- While halted, what decodes to RDST is the one command that is not refused. -/
theorem step_of_halted {s : State} {c : Command} {rest : List HostEvent} (halted : s.flt = true)
    (hhost : s.host = .command c :: rest) (notRdst : decode c ≠ .ok .rdst) :
    step s = .next (refuseHalted { s with host := rest }) := by
  have stillHalted : ({ s with host := rest } : State).flt = true := halted
  cases hd : decode c with
  | error why => rw [step_of_reserved hhost hd, reservedWord_of_halted stillHalted]
  | ok i =>
    have hi : i ≠ .rdst := by
      rintro rfl
      exact notRdst hd
    rw [step_of_decoded hhost hd, exec_of_ne_rdst i _ hi, runCommand_halted stillHalted]

/-- RDST answers with STATUS, whether or not the core is halted (R66, R115). -/
theorem step_of_rdst {s : State} {c : Command} {rest : List HostEvent} (hhost : s.host = .command c :: rest)
    (hd : decode c = .ok .rdst) :
    step s = .next (respond .ok (zext128 (statusView s)) { s with host := rest }) :=
  (step_of_decoded hhost hd).trans (exec_rdst _)

/-- Settles O11: a command either is RDST, which only answers, or is refused, which only answers too. -/
theorem haltedCoreServesOnlyRdst : Obligations.HaltedCoreServesOnlyRdst := by
  intro s c rest halted hhost
  by_cases hcw : c.cw = 0x50
  · exact ⟨_, step_of_rdst hhost ((cw_eq_rdst_iff c).mp hcw), ⟨rfl, rfl, rfl, rfl⟩, ⟨rfl, rfl⟩, rfl, rfl,
      absurd hcw, fun _ => rfl⟩
  · exact ⟨_, step_of_halted halted hhost (mt (cw_eq_rdst_iff c).mpr hcw), ⟨rfl, rfl, rfl, rfl⟩, ⟨rfl, rfl⟩, rfl, rfl,
      fun _ => rfl, fun h => absurd h hcw⟩

/-! ### The loaded core (R117) -/

/-- With both registers written, nothing a command could read is missing. -/
theorem missing_of_written {s : State} (hsv : s.sv = true) (hkv : s.kv = true) (rd : Reads) :
    missing rd s = false := by
  simp [missing, hsv, hkv]

/-- Settles O22: every instruction is ready, and its effect answers OK and clears no valid flag. -/
theorem loadedCoreNeverFaults : Obligations.LoadedCoreNeverFaults := by
  intro i s running hsv hkv
  obtain ⟨d, hanswers⟩ := effectOf_answers i s
  exact ⟨effectOf i s, d, exec_of_ready (.inr ⟨running, missing_of_written hsv hkv (readsOf i)⟩), hanswers,
    (effectOf_flt i s).trans running, by simp [effectOf_sv, hsv], by simp [effectOf_kv, hkv]⟩

/-! ### Fault entry and reset (R114, R119, R126) -/

/-- The status a fault answers with has the fault's own code (R44, R112). -/
theorem statusCode_causeStatus (e : Cause) : statusCode (causeStatus e) = causeCode e := by
  cases e <;> rfl

/-- While halted a fault leaves the first cause recorded (R114). -/
theorem raiseFault_cause_of_halted {s : State} (e : Cause) (halted : s.flt = true) :
    (raiseFault e s).cause = s.cause := by
  simp [halted]

/-- Settles O12: CAUSE is written exactly when FLT was 0; the rest is the record of the fault and its answer. -/
theorem faultEntry : Obligations.FaultEntry := by
  intro e s
  refine ⟨⟨rfl, rfl, rfl, rfl⟩, rfl, ?_, ⟨rfl, rfl⟩, causeStatus e, rfl, statusCode_causeStatus e, rfl, rfl⟩
  split
  case isTrue running => exact raiseFault_cause_of_running e running
  case isFalse halted => exact raiseFault_cause_of_halted e (Bool.eq_true_of_not_eq_false halted)

/-- Settles O14: the step is the reset itself, whatever is beside it. -/
theorem resetClearsTheFlags : Obligations.ResetClearsTheFlags :=
  fun _ _ _ hhost => ⟨_, step_of_reset hhost, rfl, rfl, rfl, rfl, rfl, rfl⟩

end Sys2Proof.Machine

/-! ## The statement of the reset and hazards family (70_reset_and_hazards.md) -/

namespace Sys2Proof.Machine

/-! ### One command keeps FLT in step with the responses (R43, R115, R137) -/

theorem CommandStep.host_kept {c : Command} {s t : State} (h : CommandStep c s t) : t.host = s.host := by
  cases h with
  | refused => rfl
  | illegal => rfl
  | uninit => rfl
  | executed i => exact effectOf_host i s

/-- FLT is 1 after a command exactly when it was 1 before or the command's own response is not OK. A served RDST answers
OK while halted, so the response alone does not tell. -/
theorem CommandStep.response_failed_iff_flt {c : Command} {s t : State} (h : CommandStep c s t) :
    ∃ r : Response, t.responses = s.responses ++ [r] ∧ (s.flt = true ∨ r.st ≠ .ok ↔ t.flt = true) := by
  cases h with
  | refused halted => exact ⟨⟨.halted, 0⟩, rfl, iff_of_true (.inl halted) halted⟩
  | illegal => exact ⟨⟨.illegal, 0⟩, rfl, iff_of_true (.inr nofun) rfl⟩
  | uninit => exact ⟨⟨.uninit, 0⟩, rfl, iff_of_true (.inr nofun) rfl⟩
  | executed i =>
    obtain ⟨d, hd⟩ := effectOf_answers i s
    exact ⟨⟨.ok, d⟩, hd, by simp⟩

/-- A run has failed at its first response or later. -/
theorem someFailed_cons (r : Response) (rs : List Response) : SomeFailed (r :: rs) ↔ r.st ≠ .ok ∨ SomeFailed rs := by
  simp only [SomeFailed, List.mem_cons, exists_eq_or_imp]

/-- A run of commands from any state, halted or not: FLT is 1 at its end exactly when it was 1 at its start or some
response is not OK. -/
theorem run_presenting {cs : List Command} {s : State} (hhost : s.host = presenting cs) :
    ∃ (t : State) (rs : List Response), Host.Core.run Sys2Proof.core cs.length s = .next t ∧
      t.host = [] ∧ t.responses = s.responses ++ rs ∧ rs.length = cs.length ∧
      (s.flt = true ∨ SomeFailed rs ↔ t.flt = true) := by
  induction cs generalizing s with
  | nil => exact ⟨s, [], run_zero s, hhost, by simp, rfl, by simp⟩
  | cons c cs ih =>
    obtain ⟨u, hstep⟩ := step_next s
    have hcommand : CommandStep c { s with host := presenting cs } u := commandStep_of_step hhost hstep
    obtain ⟨r, hr, hfirst⟩ := hcommand.response_failed_iff_flt
    obtain ⟨t, rs, hrun, hdone, hrs, hlength, hrest⟩ := ih hcommand.host_kept
    refine ⟨t, r :: rs, (run_succ_of_step _ hstep).trans hrun, hdone, ?_, by simp [hlength], ?_⟩
    · rw [hrs, hr, List.append_assoc, List.singleton_append]
    · rw [someFailed_cons, ← or_assoc, hfirst, hrest]

/-- Settles O21: by induction on the commands from any state, since a later part of the run may begin halted. -/
theorem runGoesWrongExactlyWhenFaulted : Obligations.RunGoesWrongExactlyWhenFaulted := by
  intro cs s running hhost
  obtain ⟨t, rs, hrun, hdone, hrs, hlength, hiff⟩ := run_presenting hhost
  exact ⟨t, rs, hrun, hdone, hrs, hlength, by simpa [running] using hiff⟩

end Sys2Proof.Machine

/-! ## The other statements: the idle step (log 5) and the construction of the S-box (R73, logs 4 and 17) -/

namespace Sys2Proof.Machine

/-- Settles O9: by what a step does with an empty host, the case of the idle step. -/
theorem stepIdlesWithNothingPresented : Obligations.StepIdlesWithNothingPresented :=
  fun _ hhost => step_of_nothing hhost

end Sys2Proof.Machine

namespace Sys2Proof

/-- The table without its affine map gives the inverse in the field (R73). -/
theorem fieldMul_sboxAffineInverse_lookup :
    ∀ x : Byte, x ≠ 0 → fieldMul x (sboxAffineInverse (lookup x)) = 1 := by decide

/-- Settles O33: the inverse asked for is the table's value with the affine map undone. -/
theorem sboxMatchesItsConstruction : Obligations.SboxMatchesItsConstruction :=
  ⟨rfl, fun x hx => ⟨sboxAffineInverse (lookup x), fieldMul_sboxAffineInverse_lookup x hx,
    (sboxAffine_sboxAffineInverse (lookup x)).symm⟩⟩

end Sys2Proof
